-- ==== Sys2Proof/Word.lean ====
section
/-! DEFINITION. The value types of the block: bytes, 16-bit request fields, Colors. -/

namespace Sys2Proof

/-- A byte, bit 0 the least significant (00_scope R9). -/
abbrev Byte := BitVec 8

/-- A 16-bit request field or response value (CW = 16, 00_scope R7; 30_encoding R120; 40 R171). -/
abbrev Half := BitVec 16

/-- The device-native color (00_scope R10): 8 bits on GOLED; on EPD and WOLED a 1-bit value, held in bit 0 (log 11). -/
abbrev Color := BitVec 8

end Sys2Proof
end

