-- ==== Sys2Proof/Config.lean ====
section
/-! DEFINITION. The implementation parameters of 00_scope R7 and the free values of the model. -/

namespace Sys2Proof

/-- The panel variant an instance is built for (00_scope R2). -/
inductive Variant where
  | epd | goled | woled
deriving DecidableEq, Repr, Inhabited

/-- An electrical level of a pin. -/
inductive Level where
  | low | high
deriving DecidableEq, Repr, Inhabited

/-- FRAMING: how `SendData` splits its bytes into chip-select transactions (00_scope R7, R13). -/
inductive Framing where
  | perByte | perBurst
deriving DecidableEq, Repr, Inhabited

/-- DEGENERATE_EXTENT: what a degenerate window does (20_memory R83). -/
inductive DegenerateExtent where
  | empty | fault
deriving DecidableEq, Repr, Inhabited

/-- One action of EPD_INIT_SEQ (41_epaper R201, R205). -/
inductive InitAction where
  | cmd (op : Byte) (payload : List Byte)
  | wait
  | pause (ms : Nat)
deriving DecidableEq, Repr, Inhabited

/-- The implementation parameters of one instance (00_scope R7). CW is fixed at 16 by the field widths of `Half`;
WIDTH, HEIGHT, PIXEL_PER_BYTE and the 1-bit palettes follow from `variant` (10_state R45). -/
structure Config where
  variant : Variant
  goledLight : Color
  goledDark : Color
  degenerateExtent : DegenerateExtent
  framing : Framing
  csActiveLevel : Level
  dcCmdLevel : Level
  busyActiveLevel : Level
  resetLowMs : Nat
  resetSettleMs : Nat
  pollMs : Nat
  epdInitSeq : List InitAction
  goledInitBlock : List (List Byte)
  /-- The display-on command of GOLED_INIT_BLOCK, whose bytes the spec does not give (42_gray_oled R251). -/
  goledDisplayOn : List Byte
  goledDPre : Nat
  goledDPost : Nat
  woledD1 : Nat
  woledD2 : Nat
  /-- GLYPH: one 8x8 bitmap per byte value; bit `8*r + c` of an entry is the glyph pixel of row r, column c. -/
  glyph : Vector (BitVec 64) 256
  diagEnabled : Bool
deriving DecidableEq, Repr

/-- The n-th free draw of a run (00_scope R18): any byte, chosen independently at each occurrence (log 7). -/
opaque Config.freeByte : Nat → Byte

/-- The busy level of the n-th sample beyond the listed ones: unconstrained (20_memory R98; log 8). -/
opaque Config.panelBusy : Nat → Level

/-- FRAMING of the standard instance, OPEN (00_scope R7; log 4). -/
opaque Config.openFraming : Framing
/-- POLL_MS of the standard instance, OPEN (00_scope R7; log 4). -/
opaque Config.openPollMs : Nat
/-- Payloads of the first five commands of EPD_INIT_SEQ, OPEN (41_epaper R205; log 4). -/
opaque Config.openEpdPayload : Nat → List Byte
/-- The rest of EPD_INIT_SEQ, OPEN (41_epaper R205; log 4). -/
opaque Config.openEpdTail : List InitAction
/-- The configuring commands of GOLED_INIT_BLOCK, OPEN (42_gray_oled R251; log 4). -/
opaque Config.openGoledCmds : List (List Byte)
/-- The first byte of GOLED_INIT_BLOCK's last command (display-on), OPEN (42_gray_oled R251; log 4). -/
opaque Config.openGoledOnOp : Byte
/-- Further bytes of GOLED_INIT_BLOCK's last command, OPEN (42_gray_oled R251; log 4). -/
opaque Config.openGoledOnArgs : List Byte

/-- How many bytes a GOLED_INIT_BLOCK has in total. -/
def blockBytes (block : List (List Byte)) : Nat := (block.map List.length).sum

/-- GOLED_INIT_BLOCK as 42_gray_oled R251 admits it: no command of it empty, display-on its last command, and about 30
bytes in total, which the model reads as 20 to 40 (log 30). -/
def goledInitBlockOk (displayOn : List Byte) (block : List (List Byte)) : Bool :=
  block.all (fun k => !k.isEmpty) && (block.getLast? == some displayOn) &&
    decide (20 ≤ blockBytes block) && decide (blockBytes block ≤ 40)

/-- The display-on command of the standard instance: one to four open bytes (log 4). -/
def standardDisplayOn : List Byte := Config.openGoledOnOp :: Config.openGoledOnArgs.take 3

/-- GOLED_INIT_BLOCK of the standard instance: the open commands and display-on where 42_gray_oled R251 admits them, and
otherwise 25 zero bytes and display-on; nothing can be proved of which (log 4). -/
def standardInitBlock : List (List Byte) :=
  let block := Config.openGoledCmds ++ [standardDisplayOn]
  if goledInitBlockOk standardDisplayOn block then block else [List.replicate 25 0, standardDisplayOn]

/-- The delays GOLED_D_PRE, GOLED_D_POST, WOLED_D1, WOLED_D2 by number, OPEN (00_scope R7; log 4). -/
opaque Config.openDelay : Nat → Nat
/-- The glyph bitmaps, OPEN (20_memory R75; log 4). -/
opaque Config.openGlyph : Nat → BitVec 64
/-- DIAG_ENABLED, OPEN (60_exceptions R366; log 4). -/
opaque Config.openDiag : Bool

/-- The twelve EPD command opcodes (30_encoding R125, R126). -/
def epdOpcodes : List Byte :=
  [0x01, 0x11, 0x44, 0x45, 0x3C, 0x21, 0x18, 0x22, 0x20, 0x24, 0x4E, 0x4F]

/-- An action EPD_INIT_SEQ may hold: a command of one of the twelve opcodes with any payload, a wait, a pause
(41_epaper R205 (c), (d)). -/
def initActionOk : InitAction → Bool
  | .cmd op _ => epdOpcodes.contains op
  | .wait => true
  | .pause _ => true

/-- The configuration of `State.reset`: the spec's defaults, opaque constants where it gives none, and a variant
(log 3, log 4). Its EPD_INIT_SEQ begins with the five commands of 41_epaper R205. -/
def Config.standard : Config where
  variant := .epd
  goledLight := 0x0F
  goledDark := 0x00
  degenerateExtent := .empty
  framing := Config.openFraming
  csActiveLevel := .low
  dcCmdLevel := .low
  busyActiveLevel := .high
  resetLowMs := 200
  resetSettleMs := 200
  pollMs := Config.openPollMs
  epdInitSeq :=
    [.cmd 0x01 (Config.openEpdPayload 0), .cmd 0x11 (Config.openEpdPayload 1), .cmd 0x44 (Config.openEpdPayload 2),
     .cmd 0x45 (Config.openEpdPayload 3), .cmd 0x3C (Config.openEpdPayload 4)]
      ++ Config.openEpdTail.filter initActionOk
  goledInitBlock := standardInitBlock
  goledDisplayOn := standardDisplayOn
  goledDPre := Config.openDelay 0
  goledDPost := Config.openDelay 1
  woledD1 := Config.openDelay 2
  woledD2 := Config.openDelay 3
  glyph := Vector.ofFn (fun i => Config.openGlyph i.val)
  diagEnabled := Config.openDiag

end Sys2Proof
end

