-- ==== Sys2Proof/Syntax.lean ====
section
/-! DEFINITION. The instructions: one constructor per row of spec/opcode_table.json, and the encoded forms they have. -/

namespace Sys2Proof

/-- The instructions of the block, in the order of the opcode table: the requests a host presents (30_encoding R115),
then the wire commands and pixel-data bytes the sequencer issues (30_encoding R125 to R128). -/
inductive Instr where
  -- requests
  | init
  | setFrameCallback (x y w h : Half)
  | setFrameBuffer (x y w h : Half)
  | clearFrame (c : Byte)
  | displayFrame
  | drawText (fg bg : Byte) (x y n : Half)
  | rdWidth
  | rdHeight
  | rdPpb
  | rdLight
  | rdDark
  -- EPD wire commands: opcode at command level, payload at data level
  | epdDriverOutputControl (payload : List Byte)
  | epdDataEntryMode (payload : List Byte)
  | epdSetRamXWindow (payload : List Byte)
  | epdSetRamYWindow (payload : List Byte)
  | epdBorder (payload : List Byte)
  | epdDisplayUpdateControl (payload : List Byte)
  | epdTemperatureSensor (payload : List Byte)
  | epdUpdateSequenceSelect (payload : List Byte)
  | epdActivateUpdate (payload : List Byte := []) -- DISPLAY_FRAME's has none (41_epaper R228)
  | epdWriteRam (payload : List Byte)
  | epdSetRamXPointer (payload : List Byte)
  | epdSetRamYPointer (payload : List Byte)
  -- GOLED wire commands
  | goledSetColumnWindow (first last : Byte)
  | goledSetRowWindow (first last : Byte)
  | goledInitBlock (bytes : List Byte)
  -- WOLED wire commands
  | woledSetAddressingModeHorizontal
  | woledFlipVertical
  | woledFlipHorizontal
  | woledDisplayOn
  | woledSetColumnWindow (first last : Byte)
  | woledSetPageWindow (first last : Byte)
  -- pixel data
  | epdPixelData (b : Byte)
  | goledPixelData (b : Byte)
  | woledPixelData (b : Byte)
deriving DecidableEq, Repr

/-- The opcode spaces (30_encoding R123): requests, and one wire space per variant. On GOLED the bytes sent during
INIT are a space of their own, the opaque block (30_encoding R124). -/
inductive Space where
  | request | epd | goled | goledInit | woled
deriving DecidableEq, Repr

/-- What the sequencer sends as one wire command: the bytes of one command-level transaction, then the data-level
bytes (30_encoding R122). Either list may be empty. -/
structure WireWord where
  cmd : List Byte
  data : List Byte
deriving DecidableEq, Repr

/-- An encoded instruction: its space and its bytes. A request is the 12 bytes of its descriptor in `word.cmd`
(30_encoding R111). -/
structure Code where
  space : Space
  word : WireWord
deriving DecidableEq, Repr

/-- A pixel function as data (20_memory R71): the Color at each listed coordinate, and one Color everywhere else.
Every total function on the panel has this form (log 10). -/
structure PixelFn where
  base : Color
  cells : List (Int × Int × Color)
deriving DecidableEq, Repr

/-- The port bindings of a request (30_encoding R121): pixel function, color buffer and text string. A request uses
the one its opcode binds. -/
structure Ports where
  f : PixelFn
  buf : List Color
  str : List Byte
deriving DecidableEq, Repr

/-- A request as the host presents it: one 12-byte descriptor and its port bindings (30_encoding R110). -/
structure HostRequest where
  desc : Vector Byte 12
  ports : Ports
deriving DecidableEq, Repr

end Sys2Proof
end

