-- ==== Sys2Proof/WellFormed.lean ====
section
/-! DEFINITION. What a well-formed instruction, configuration and host request are. Each check is a Bool. -/

namespace Sys2Proof

/-- Every operand value of every form has an encoding, but for an empty GOLED INIT command: each command of the block
is a non-empty byte list (42_gray_oled R251). -/
def Instr.wf : Instr → Bool
  | .goledInitBlock bytes => !bytes.isEmpty
  | .init | .setFrameCallback _ _ _ _ | .setFrameBuffer _ _ _ _ | .clearFrame _ | .displayFrame | .drawText _ _ _ _ _
  | .rdWidth | .rdHeight | .rdPpb | .rdLight | .rdDark
  | .epdDriverOutputControl _ | .epdDataEntryMode _ | .epdSetRamXWindow _ | .epdSetRamYWindow _ | .epdBorder _
  | .epdDisplayUpdateControl _ | .epdTemperatureSensor _ | .epdUpdateSequenceSelect _ | .epdActivateUpdate _
  | .epdWriteRam _ | .epdSetRamXPointer _ | .epdSetRamYPointer _
  | .goledSetColumnWindow _ _ | .goledSetRowWindow _ _
  | .woledSetAddressingModeHorizontal | .woledFlipVertical | .woledFlipHorizontal | .woledDisplayOn
  | .woledSetColumnWindow _ _ | .woledSetPageWindow _ _
  | .epdPixelData _ | .goledPixelData _ | .woledPixelData _ => true

/-- The opcodes of the `Cmd` actions of an EPD initialisation sequence, in order. -/
def initOpcodes (seq : List InitAction) : List Byte :=
  seq.filterMap (fun a => match a with
    | .cmd op _ => some op
    | .wait => none
    | .pause _ => none)

/-- EPD_INIT_SEQ as 41_epaper R205 admits it: every action legal, and the five named commands first, in order. R205 has
further commands follow ("etc.") and gives none of them: that there may be none is the model's choice (log 32). -/
def epdInitSeqOk (seq : List InitAction) : Bool :=
  seq.all initActionOk && ((initOpcodes seq).take 5 == [0x01, 0x11, 0x44, 0x45, 0x3C])

/-- An admitted configuration (00_scope R7). "About 200" of RESET_LOW_MS and RESET_SETTLE_MS has no bounds in the spec: that
every duration is admitted, 0 included, is the model's choice (log 31). -/
def Config.wf (c : Config) : Bool :=
  epdInitSeqOk c.epdInitSeq && goledInitBlockOk c.goledDisplayOn c.goledInitBlock

/-- A Color the variant's type holds (00_scope R10): one bit on EPD and WOLED, any byte on GOLED. -/
def colorOk (v : Variant) (c : Color) : Bool :=
  match v with
  | .goled => true
  | .epd => c.ule 1
  | .woled => c.ule 1

/-- Bindings the host's typed interface could give on a variant: every Color of the variant's type (00_scope R10). -/
def Ports.wf (v : Variant) (p : Ports) : Bool :=
  colorOk v p.f.base && p.f.cells.all (fun e => colorOk v e.2.2) && p.buf.all (colorOk v)

/-- A DRAW_TEXT request binds a string of N = W bytes (30_encoding R121). -/
def HostRequest.stringOk (r : HostRequest) : Bool :=
  r.desc[0] != 0x06 || r.ports.str.length == r.desc[8].toNat + 256 * r.desc[9].toNat

end Sys2Proof
end

