-- ==== Sys2Proof/Decode.lean ====
section
/-! DEFINITION. The decoder of requests and wire commands, total on any bytes and rejecting by name, and the encoder. -/

namespace Sys2Proof

/-- Why a code is no instruction. -/
inductive DecodeError where
  /-- An OP value that 30_encoding R115 does not list (R117). -/
  | undefinedOpcode
  /-- The RSV byte is not 0 (R116). -/
  | reservedNotZero
  /-- A field that R112 marks "0" is not 0 (R116). -/
  | unusedFieldNotZero
  /-- A descriptor that is not 12 bytes (R110). -/
  | badLength
  /-- Bytes that are no wire command of the space (R126, R129). -/
  | undefinedWireCommand
deriving DecidableEq, Repr

/-! ### Bit fields and byte order -/

/-- `lo8(v)` (00_scope R9). -/
def lo8 (v : Half) : Byte := v.extractLsb' 0 8

/-- `hi8(v)` (00_scope R9). -/
def hi8 (v : Half) : Byte := v.extractLsb' 8 8

/-- A little-endian 16-bit field: low byte first (30_encoding R111, R120). -/
def half (lo hi : Byte) : Half := hi ++ lo

/-! ### Requests -/

/-- A request with its fields checked for zero (30_encoding R116). -/
def whenZero (unused : Bool) (i : Instr) : Except DecodeError Instr :=
  if unused then .ok i else .error .unusedFieldNotZero

/-- The request of a descriptor's fields: OP selects it (30_encoding R115), and each field R112 marks "0" must be 0. -/
def decodeOp (op c0 c1 : Byte) (x y w h : Half) : Except DecodeError Instr :=
  let noColors := c0 == 0 && c1 == 0
  let noWindow := x == 0 && y == 0 && w == 0 && h == 0
  match op.toNat with
  | 0x01 => whenZero (noColors && noWindow) .init
  | 0x02 => whenZero noColors (.setFrameCallback x y w h)
  | 0x03 => whenZero noColors (.setFrameBuffer x y w h)
  | 0x04 => whenZero (c1 == 0 && noWindow) (.clearFrame c0)
  | 0x05 => whenZero (noColors && noWindow) .displayFrame
  | 0x06 => whenZero (h == 0) (.drawText c0 c1 x y w)
  | 0x10 => whenZero (noColors && noWindow) .rdWidth
  | 0x11 => whenZero (noColors && noWindow) .rdHeight
  | 0x12 => whenZero (noColors && noWindow) .rdPpb
  | 0x13 => whenZero (noColors && noWindow) .rdLight
  | 0x14 => whenZero (noColors && noWindow) .rdDark
  | _ => .error .undefinedOpcode

/-- Check (1) of 30_encoding R119: a defined OP, RSV zero and unused fields zero. -/
def decodeRequest (op c0 c1 rsv : Byte) (x y w h : Half) : Except DecodeError Instr :=
  match decodeOp op c0 c1 x y w h with
  | .error e => .error e
  | .ok i => if rsv == 0 then .ok i else .error .reservedNotZero

/-- The descriptor layout of 30_encoding R111. -/
def decodeDescriptor : List Byte → Except DecodeError Instr
  | [op, c0, c1, rsv, xl, xh, yl, yh, wl, wh, hl, hh] =>
    decodeRequest op c0 c1 rsv (half xl xh) (half yl yh) (half wl wh) (half hl hh)
  | _ => .error .badLength

/-! ### Wire commands -/

/-- An EPD command by its opcode byte (30_encoding R125); the data-level bytes are its payload (R124), which EPD_INIT_SEQ
may give any command (41_epaper R201, R205; log 25). -/
def decodeEpdCommand (op : Byte) (payload : List Byte) : Except DecodeError Instr :=
  match op.toNat with
  | 0x01 => .ok (.epdDriverOutputControl payload)
  | 0x11 => .ok (.epdDataEntryMode payload)
  | 0x44 => .ok (.epdSetRamXWindow payload)
  | 0x45 => .ok (.epdSetRamYWindow payload)
  | 0x3C => .ok (.epdBorder payload)
  | 0x21 => .ok (.epdDisplayUpdateControl payload)
  | 0x18 => .ok (.epdTemperatureSensor payload)
  | 0x22 => .ok (.epdUpdateSequenceSelect payload)
  | 0x20 => .ok (.epdActivateUpdate payload)
  | 0x24 => .ok (.epdWriteRam payload)
  | 0x4E => .ok (.epdSetRamXPointer payload)
  | 0x4F => .ok (.epdSetRamYPointer payload)
  | _ => .error .undefinedWireCommand

/-- The EPD wire space: one command-level byte and its payload, or one pixel byte (30_encoding R122, R125). -/
def decodeEpd : WireWord → Except DecodeError Instr
  | ⟨[op], payload⟩ => decodeEpdCommand op payload
  | ⟨[], [b]⟩ => .ok (.epdPixelData b)
  | _ => .error .undefinedWireCommand

/-- The GOLED wire space outside INIT: the two windows and the pixel byte (30_encoding R127). -/
def decodeGoled : WireWord → Except DecodeError Instr
  | ⟨[op, first, last], []⟩ =>
    if op == 0x15 then .ok (.goledSetColumnWindow first last)
    else if op == 0x75 then .ok (.goledSetRowWindow first last)
    else .error .undefinedWireCommand
  | ⟨[], [b]⟩ => .ok (.goledPixelData b)
  | _ => .error .undefinedWireCommand

/-- The GOLED wire space in INIT: the bytes of GOLED_INIT_BLOCK are opaque (30_encoding R124). -/
def decodeGoledInit : WireWord → Except DecodeError Instr
  | ⟨b :: bytes, []⟩ => .ok (.goledInitBlock (b :: bytes))
  | _ => .error .undefinedWireCommand

/-- The WOLED wire space (30_encoding R128). -/
def decodeWoled : WireWord → Except DecodeError Instr
  | ⟨[op], []⟩ =>
    if op == 0xA1 then .ok .woledFlipVertical
    else if op == 0xC8 then .ok .woledFlipHorizontal
    else if op == 0xAF then .ok .woledDisplayOn
    else .error .undefinedWireCommand
  | ⟨[op, mode], []⟩ =>
    if op == 0x20 && mode == 0x00 then .ok .woledSetAddressingModeHorizontal else .error .undefinedWireCommand
  | ⟨[op, first, last], []⟩ =>
    if op == 0x21 then .ok (.woledSetColumnWindow first last)
    else if op == 0x22 then .ok (.woledSetPageWindow first last)
    else .error .undefinedWireCommand
  | ⟨[], [b]⟩ => .ok (.woledPixelData b)
  | _ => .error .undefinedWireCommand

/-- The decoder: one instruction, or a reason by name, for any bytes of any space (30_encoding R118, R123). -/
def decode (c : Code) : Except DecodeError Instr :=
  match c.space with
  | .request => if c.word.data.isEmpty then decodeDescriptor c.word.cmd else .error .badLength
  | .epd => decodeEpd c.word
  | .goled => decodeGoled c.word
  | .goledInit => decodeGoledInit c.word
  | .woled => decodeWoled c.word

/-! ### Encoder -/

/-- The 12 bytes of a descriptor with RSV 0 (30_encoding R111). -/
def descriptor (op c0 c1 : Byte) (x y w h : Half) : Code :=
  ⟨.request, ⟨[op, c0, c1, 0, lo8 x, hi8 x, lo8 y, hi8 y, lo8 w, hi8 w, lo8 h, hi8 h], []⟩⟩

/-- The code of an instruction, from the encoding tables of 30_encoding R112 and R125 to R128. -/
def encode : Instr → Code
  | .init => descriptor 0x01 0 0 0 0 0 0
  | .setFrameCallback x y w h => descriptor 0x02 0 0 x y w h
  | .setFrameBuffer x y w h => descriptor 0x03 0 0 x y w h
  | .clearFrame c => descriptor 0x04 c 0 0 0 0 0
  | .displayFrame => descriptor 0x05 0 0 0 0 0 0
  | .drawText fg bg x y n => descriptor 0x06 fg bg x y n 0
  | .rdWidth => descriptor 0x10 0 0 0 0 0 0
  | .rdHeight => descriptor 0x11 0 0 0 0 0 0
  | .rdPpb => descriptor 0x12 0 0 0 0 0 0
  | .rdLight => descriptor 0x13 0 0 0 0 0 0
  | .rdDark => descriptor 0x14 0 0 0 0 0 0
  | .epdDriverOutputControl p => ⟨.epd, ⟨[0x01], p⟩⟩
  | .epdDataEntryMode p => ⟨.epd, ⟨[0x11], p⟩⟩
  | .epdSetRamXWindow p => ⟨.epd, ⟨[0x44], p⟩⟩
  | .epdSetRamYWindow p => ⟨.epd, ⟨[0x45], p⟩⟩
  | .epdBorder p => ⟨.epd, ⟨[0x3C], p⟩⟩
  | .epdDisplayUpdateControl p => ⟨.epd, ⟨[0x21], p⟩⟩
  | .epdTemperatureSensor p => ⟨.epd, ⟨[0x18], p⟩⟩
  | .epdUpdateSequenceSelect p => ⟨.epd, ⟨[0x22], p⟩⟩
  | .epdActivateUpdate p => ⟨.epd, ⟨[0x20], p⟩⟩
  | .epdWriteRam p => ⟨.epd, ⟨[0x24], p⟩⟩
  | .epdSetRamXPointer p => ⟨.epd, ⟨[0x4E], p⟩⟩
  | .epdSetRamYPointer p => ⟨.epd, ⟨[0x4F], p⟩⟩
  | .goledSetColumnWindow a b => ⟨.goled, ⟨[0x15, a, b], []⟩⟩
  | .goledSetRowWindow a b => ⟨.goled, ⟨[0x75, a, b], []⟩⟩
  | .goledInitBlock bytes => ⟨.goledInit, ⟨bytes, []⟩⟩
  | .woledSetAddressingModeHorizontal => ⟨.woled, ⟨[0x20, 0x00], []⟩⟩
  | .woledFlipVertical => ⟨.woled, ⟨[0xA1], []⟩⟩
  | .woledFlipHorizontal => ⟨.woled, ⟨[0xC8], []⟩⟩
  | .woledDisplayOn => ⟨.woled, ⟨[0xAF], []⟩⟩
  | .woledSetColumnWindow a b => ⟨.woled, ⟨[0x21, a, b], []⟩⟩
  | .woledSetPageWindow a b => ⟨.woled, ⟨[0x22, a, b], []⟩⟩
  | .epdPixelData b => ⟨.epd, ⟨[], [b]⟩⟩
  | .goledPixelData b => ⟨.goled, ⟨[], [b]⟩⟩
  | .woledPixelData b => ⟨.woled, ⟨[], [b]⟩⟩

/-! ### The host's table words -/

/-- Byte i of a table word: bits 8i+7 .. 8i (30_encoding R111: bit i of the word is bit i mod 8 of byte i div 8). -/
def tableByte (w i : Nat) : Byte := BitVec.ofNat 8 (w / 256 ^ i)

/-- The bytes of a table word, up to the longest form (12), zero above its bits. -/
def tableBytes (nbits w : Nat) : List Byte :=
  (List.range 12).map (fun i => if 8 * i < nbits then tableByte w i else 0)

/-- How many payload bytes 30_encoding R125 gives an EPD opcode outside INIT. -/
def epdPayloadLength (op : Byte) : Nat :=
  match op.toNat with
  | 0x44 => 2
  | 0x45 => 4
  | 0x4E => 1
  | 0x4F => 2
  | _ => 0

/-- The codes a table word can stand for, in the order they are tried. A word does not say its opcode space, and the
spaces share byte values (30_encoding R123): a 16-bit word is tried as the one two-byte command (WOLED) first, then
every word as a request, an EPD command, a GOLED window, and a WOLED command (log 14). -/
def tableCodes (nbits w : Nat) : List Code :=
  let bs := tableBytes nbits w
  let b0 := tableByte w 0
  (if nbits = 16 then [⟨.woled, ⟨bs.take 2, []⟩⟩] else []) ++
  [⟨.request, ⟨bs, []⟩⟩,
   ⟨.epd, ⟨[b0], (bs.drop 1).take (epdPayloadLength b0)⟩⟩,
   ⟨.goled, ⟨bs.take 3, []⟩⟩,
   ⟨.woled, ⟨bs.take 3, []⟩⟩,
   ⟨.woled, ⟨bs.take 1, []⟩⟩]

/-- The first code of a table word that decodes; the request form where none does. -/
def tableCode (nbits w : Nat) : Code :=
  match (tableCodes nbits w).find? (fun c => (decode c).isOk) with
  | some c => c
  | none => ⟨.request, ⟨tableBytes nbits w, []⟩⟩

/-- What the decoder reads from a table word. -/
def decodeTableWord (nbits w : Nat) : Option Instr :=
  (decode (tableCode nbits w)).toOption

end Sys2Proof
end

