-- ==== Sys2Proof/Machine/State.lean ====
section
/-! DEFINITION. The machine's state as plain data, its value after reset, and the reasons a step can stop. -/

namespace Sys2Proof.Machine

/-- Why a step stops with a fault of the model. The spec's own faults (60_exceptions R361) are not here: they are taken
as the exception they are, and lead to a next state in HALTED. -/
inductive Fault where
  /-- Raised when a pixel byte is transferred whose intended address is no unit of the panel's frame memory
  (20_memory R89). Safe: the bounds property R90 says that no request reaches it (log 17). -/
  | noSuchFrameUnit
deriving DecidableEq, Repr

/-- Why an instruction has no meaning in a state. -/
inductive Refusal where
  /-- Raised by an arm of `exec` that has no meaning yet. Safe. -/
  | notModelled (mnemonic : String)
  /-- Raised by the meaning of a wire command on an instance of another VARIANT: the opcode spaces are per variant and
  that instance has no such command (30_encoding R123, R126, R129). Safe: the sequencer issues none (log 13). -/
  | notInVariant
  /-- Raised by `step` where the sequencer stands at bytes that are no wire command of its VARIANT, which only an
  initialisation parameter that 41_epaper R205 or 42_gray_oled R251 does not admit can put there. Safe (log 13). -/
  | undefinedWireCommand
deriving DecidableEq, Repr

/-- The fault codes of 60_exceptions R361. -/
inductive FaultCode where
  | busFailure | pinFailure | pinUnreportable | illegalRequest | illegalState | illegalArgument | adapterRange | degenerate
deriving DecidableEq, Repr

/-- MODE (10_state R36). -/
inductive Mode where
  | uninit | resetting | initializing | idle | writing | waitPointer | busyUpdating | halted
deriving DecidableEq, Repr

/-- The logical level of chip-select (10_state R47). -/
inductive CsLevel where
  | assert | deassert
deriving DecidableEq, Repr

/-- The logical level of data/command (10_state R48). -/
inductive DcLevel where
  | cmd | data
deriving DecidableEq, Repr

/-- The events of a trace (00_scope R23). -/
inductive Event where
  | dc (l : DcLevel)
  | cs (l : CsLevel)
  | xfer (b : Byte)
  | setRst (l : Level)
  | busySample (busy : Bool)
  | delay (ms : Nat)
  | respond (v : Half)
  | diag
  | halt (code : FaultCode)
deriving DecidableEq, Repr

/-- One operation left of the transaction group in progress (00_scope R11 to R13). A pixel byte carries the index pair
of the frame-memory unit it is for (20_memory R95). -/
inductive BusOp where
  | dc (l : DcLevel)
  | cs (l : CsLevel)
  | xfer (b : Byte) (dest : Option (Int × Int))
deriving DecidableEq, Repr

/-- The request latch (10_state R32), and the RSV byte of the descriptor it is a copy of (30_encoding R110, R111). -/
structure Latch where
  op : Byte
  c0 : Byte
  c1 : Byte
  rsv : Byte
  x : Half
  y : Half
  w : Half
  h : Half
deriving DecidableEq, Repr

/-- The EPD unit's working registers (10_state R33). -/
structure EpdWork where
  xa : Int
  wa : Int
  xe : Int
  ye : Int
  j : Int
  g : Int
  k : Nat
deriving DecidableEq, Repr

/-- The GOLED unit's working registers (10_state R33) and the two Colors of a pair as they are read (42_gray_oled R262). -/
structure GoledWork where
  xc : Int
  wc : Int
  ce : Int
  re : Int
  r : Int
  c : Int
  l : Color
  rt : Color
deriving DecidableEq, Repr

/-- The WOLED unit's working registers (10_state R33). -/
structure WoledWork where
  pg : Int
  ph : Int
  xe : Int
  pe : Int
  p : Int
  c : Int
  off : Nat
deriving DecidableEq, Repr

/-- The TXT unit's working registers (10_state R33), and the glyph row and column of 44_text R331's loops. -/
structure TextWork where
  cx : Int
  i : Nat
  ch : Byte
  gr : Nat
  gc : Nat
deriving DecidableEq, Repr

/-- The pin outputs (10_state R47 to R49). RST is EPD's alone. -/
structure Pins where
  cs : CsLevel
  dc : DcLevel
  rst : Level
deriving DecidableEq, Repr

/-- Which pixel source the running frame write queries (20_memory R71, R73; 40 R168; 44_text R333). -/
inductive PixSource where
  | callback | buffer | constant | text
deriving DecidableEq, Repr

/-- The busy wait the sequencer is in: a `Wait` of EPD_INIT_SEQ with the actions after it (41_epaper R201), the pointer
wait of a row (R211), or the commit's (R240). -/
inductive WaitSite where
  | init (rest : List InitAction)
  | pointer
  | commit
deriving DecidableEq, Repr

/-- The step of the pseudocode at which the sequencer stands (10_state R35). Where a wire command is due or in
progress, it is the step to go on at when that command is sent. -/
inductive Pos where
  /-- No request in progress. -/
  | idle
  /-- At `raise Fault(code)`: its first event is next (60_exceptions R360). -/
  | raising (code : FaultCode)
  /-- After the Diag event of `raise Fault(code)`: its Halt event is next (60_exceptions R366). -/
  | halting (code : FaultCode)
  /-- At `Respond(v)` of a read accessor (40 R171 to R175). -/
  | respond (v : Half)
  /-- 41_epaper R202: the four events of the reset pulse. -/
  | resetLow | resetHold | resetHigh | resetSettle
  /-- 41_epaper R201: the actions of EPD_INIT_SEQ still to do. -/
  | epdInit (rest : List InitAction)
  /-- A `Pause` action of EPD_INIT_SEQ and the actions after it. -/
  | pause (ms : Nat) (rest : List InitAction)
  /-- 41_epaper R230: about to sample busy. -/
  | sample (site : WaitSite)
  /-- 41_epaper R230: about to delay POLL_MS after a busy sample. -/
  | poll (site : WaitSite)
  /-- 41_epaper R211: after the X window; after the Y window; after the X pointer; after the Y pointer; after 0x24;
  at a pixel query; after the byte of a group. -/
  | epdYWindow | epdRows | epdYPointer | epdPointerSet | epdGroups | epdPixel | epdNextGroup
  /-- 42_gray_oled R250: the two delays and the commands of GOLED_INIT_BLOCK still to send. -/
  | goledPre | goledBlock (rest : List (List Byte)) | goledPost
  /-- 42_gray_oled R262: after the column window; after the row window; at the two queries of a pair; after its byte. -/
  | goledRowWindow | goledRows | goledLeft | goledRight | goledNextPair
  /-- 43_wide_oled R290: the two delays and the commands still to send. -/
  | woledDelay1 | woledDelay2 | woledInit (rest : List (List Byte))
  /-- 43_wide_oled R301: after the column window; after the page window; at a pixel query; after a column's byte. -/
  | woledPageWindow | woledPages | woledPixel | woledNextColumn
  /-- 44_text R331: about to read a string byte; about to read a glyph bit. -/
  | readChar | readGlyph
deriving DecidableEq, Repr

/-- The failure oracle (60_exceptions R363): the index of the first collaborator operation it fails, and whether a
failing pin operation is one the collaborator cannot report. Nothing after a failure is performed, so the oracle's
later answers do not matter (log 9). -/
structure Failure where
  index : Nat
  unreportable : Bool
deriving DecidableEq, Repr

/-- The state of the machine (10_state R30), the reference panel (20_memory R95 to R97), the trace, and the inputs. -/
structure State where
  /-- The implementation parameters (00_scope R7); no step changes them. -/
  cfg : Config
  mode : Mode
  haltCause : Option FaultCode
  latch : Latch
  epd : EpdWork
  goled : GoledWork
  woled : WoledWork
  text : TextWork
  /-- TB (10_state R50). -/
  tb : Vector Color 64
  /-- SR (10_state R51). -/
  sr : Byte
  pins : Pins
  /-- The sequencer position (10_state R35): the step of the pseudocode. -/
  pos : Pos
  /-- The wire command the sequencer stands at, its operands evaluated. -/
  send : Option WireWord
  /-- The operations left of the transaction group in progress. -/
  bus : List BusOp
  /-- The panel's frame memory in the reference model (20_memory R96): the units written, by address. -/
  fm : List Host.Cell
  /-- The EPD visible image in the reference model (20_memory R97). -/
  vis : List Host.Cell
  /-- The trace, oldest event first (00_scope R23). -/
  trace : List Event
  /-- The pixel source of the frame write in progress. -/
  src : PixSource
  /-- The bindings of the accepted request (30_encoding R121). -/
  ports : Ports
  /-- The requests the host has yet to present, in order (40 R163). -/
  host : List HostRequest
  /-- The levels the panel will put on the busy input, one per sample (20_memory R98). -/
  busyIn : List Level
  /-- Samples taken after `busyIn` ran out. -/
  busyReads : Nat
  /-- For the block's next reads of its inputs, whether the host had changed what is read while the request runs, against
  its duty (20_memory R94; 70 R411); false beyond the list. -/
  changed : List Bool
  oracle : Option Failure
  /-- Collaborator operations performed (60_exceptions R363). -/
  ops : Nat
  /-- Free draws made (00_scope R18). -/
  draws : Nat
deriving DecidableEq, Repr

/-- The state after power-on of an instance with configuration `c` (10_state R52; 70 R401). The values the spec leaves
unspecified are those of log 5. -/
def State.powerOn (c : Config) : State where
  cfg := c
  mode := .uninit
  haltCause := none
  latch := ⟨0, 0, 0, 0, 0, 0, 0, 0⟩
  epd := ⟨0, 0, 0, 0, 0, 0, 0⟩
  goled := ⟨0, 0, 0, 0, 0, 0, 0, 0⟩
  woled := ⟨0, 0, 0, 0, 0, 0, 0⟩
  text := ⟨0, 0, 0, 0, 0⟩
  tb := Vector.replicate 64 0
  sr := 0
  pins := ⟨.deassert, .cmd, .low⟩
  pos := .idle
  send := none
  bus := []
  fm := []
  vis := []
  trace := []
  src := .callback
  ports := ⟨⟨0, []⟩, [], []⟩
  host := []
  busyIn := []
  busyReads := 0
  changed := []
  oracle := none
  ops := 0
  draws := 0

/-- The machine right after reset: the one reset there is, power-on (70 R400), of the standard instance (log 3). -/
def State.reset : State := State.powerOn Config.standard

end Sys2Proof.Machine
end

