-- ==== Sys2Proof/Machine/Ops.lean ====
section
/-! DEFINITION. The named operations: frame memory, the trace, raising a fault, and the collaborator operations. -/

namespace Sys2Proof.Machine

/-! ### Frame memory (20_memory R76, R89, R95, R96) -/

/-- The frame-memory units of a panel (20_memory R89): EPD 25 byte columns by 200 rows, GOLED 64 column pairs by 128
rows, WOLED 128 columns by 8 pages. -/
def fmExtent : Variant → Nat × Nat
  | .epd => (25, 200)
  | .goled => (64, 128)
  | .woled => (128, 8)

/-- The address of unit `FM[u][v]`: rows (pages on WOLED) one after another. An index pair outside the panel has none. -/
def fmAddr (va : Variant) (dest : Int × Int) : Option Nat :=
  let ext := fmExtent va
  if 0 ≤ dest.1 ∧ dest.1 < ext.1 ∧ 0 ≤ dest.2 ∧ dest.2 < ext.2 then
    some (dest.2.toNat * ext.1 + dest.1.toNat)
  else none

/-- What an address no entry lists reads as: no value. Power-on contents are unspecified (70 R401; log 6). -/
def Memory.unlisted : Option Byte := none

/-- One byte of a memory. -/
def Memory.read : List Host.Cell → Nat → Option Byte
  | [], _ => Memory.unlisted
  | (k, b) :: m, a => if a = k then some b else Memory.read m a

/-- `FM[a] <- b` (20_memory R96). -/
def Memory.write : List Host.Cell → Nat → Byte → List Host.Cell
  | [], a, b => [(a, b)]
  | (k, c) :: m, a, b =>
    if a < k then (a, b) :: (k, c) :: m
    else if a = k then (a, b) :: m
    else (k, c) :: Memory.write m a b

/-- Every address of a memory is above `k` and they rise strictly. -/
def Memory.above : Nat → List Host.Cell → Bool
  | _, [] => true
  | k, (a, _) :: m => decide (k < a) && Memory.above a m

/-- The canonical form: addresses strictly rising. No entry can equal what an unlisted address reads as, since that is
no value. -/
def Memory.wf : List Host.Cell → Bool
  | [] => true
  | (a, _) :: m => Memory.above a m

/-- The panel's visible image (20_memory R97): frame memory itself on GOLED and WOLED, VIS_E on EPD. -/
def visible (s : State) : List Host.Cell :=
  match s.cfg.variant with
  | .epd => s.vis
  | .goled => s.fm
  | .woled => s.fm

/-! ### The trace, and raising a fault -/

/-- One event enters the trace (20_memory R91). -/
def emit (e : Event) (s : State) : State := { s with trace := s.trace ++ [e] }

/-- The numbers of 60_exceptions R361, as HALT_CAUSE holds them (10_state R43). -/
def faultNumber : FaultCode → Byte
  | .busFailure => 0x01
  | .pinFailure => 0x02
  | .pinUnreportable => 0x03
  | .illegalRequest => 0x10
  | .illegalState => 0x11
  | .illegalArgument => 0x12
  | .adapterRange => 0x20
  | .degenerate => 0x21

/-- What `raise Fault(code)` adds to the trace in all: one Diag first where DIAG_ENABLED (60_exceptions R366), then Halt. -/
def haltEvents (c : Config) (code : FaultCode) : List Event :=
  if c.diagEnabled then [.diag, .halt code] else [.halt code]

/-- The pseudocode comes to `raise Fault(code)` (00_scope R19): the request in progress ends there, and the next event is
the fault's first (20_memory R91: one event a step; log 2). -/
def raiseFault (code : FaultCode) (s : State) : State := { s with pos := .raising code, send := none, bus := [] }

/-- The Halt event (60_exceptions R360, R365): HALT_CAUSE and MODE are written with it (log 2). -/
def halt (code : FaultCode) (s : State) : State :=
  { s with
    trace := s.trace ++ [.halt code]
    haltCause := some code
    mode := .halted
    pos := .idle
    send := none
    bus := [] }

/-- TAKING THE EXCEPTION: the first event of `raise Fault(code)` (00_scope R19; 60_exceptions R360, R364, R366): Diag where
DIAG_ENABLED, with Halt the next event, or Halt itself. The events so far stay, nothing left of the request happens, the
pins keep their levels and nothing is rolled back. There is no handler and no return (60_exceptions R371, R372). -/
def takeFault (code : FaultCode) (s : State) : State :=
  if s.cfg.diagEnabled then { emit .diag s with pos := .halting code, send := none, bus := [] } else halt code s

/-! ### Collaborator operations (60_exceptions R363) -/

/-- Whether the oracle fails the next collaborator operation: `some unreportable` where it does. -/
def oracleFails (s : State) : Option Bool :=
  match s.oracle with
  | none => none
  | some f => if f.index = s.ops then some f.unreportable else none

/-- The fault of a failing pin operation: the oracle chooses whether it is reportable (60_exceptions R363; D47). -/
def pinFault (unreportable : Bool) : FaultCode :=
  if unreportable then .pinUnreportable else .pinFailure

/-- A pin operation or busy read: on `ok` it is counted and goes on as `k`; on failure the first event of its fault happens in
its place. -/
def pinOp (s : State) (k : State → State) : State :=
  match oracleFails s with
  | some u => takeFault (pinFault u) s
  | none => k { s with ops := s.ops + 1 }

/-- A byte transfer: as `pinOp`, but its failure is BUS_FAILURE (60_exceptions R363). -/
def busOp (s : State) (k : State → Host.Outcome State Fault Refusal) : Host.Outcome State Fault Refusal :=
  match oracleFails s with
  | some _ => .next (takeFault .busFailure s)
  | none => k { s with ops := s.ops + 1 }

/-- `SetRst(level)` (00_scope R16). -/
def driveRst (l : Level) (s : State) : State :=
  emit (.setRst l) { s with pins := { s.pins with rst := l } }

/-- `DC(l)` (10_state R48). -/
def driveDc (l : DcLevel) (s : State) : State :=
  emit (.dc l) { s with pins := { s.pins with dc := l } }

/-- `CS(l)` (10_state R47). -/
def driveCs (l : CsLevel) (s : State) : State :=
  emit (.cs l) { s with pins := { s.pins with cs := l } }

/-- `Xfer(b)`, with the reference effect of a pixel byte at its intended address (20_memory R96). -/
def transfer (b : Byte) (dest : Option (Int × Int)) (s : State) : Host.Outcome State Fault Refusal :=
  match dest with
  | none => .next (emit (.xfer b) s)
  | some d =>
    match fmAddr s.cfg.variant d with
    | some a => .next (emit (.xfer b) { s with fm := Memory.write s.fm a b })
    | none => .fault .noSuchFrameUnit

/-- The level of the busy input at the next sample: the listed one, or where none is listed any level at all (log 8). -/
def busyLevel (s : State) : Level :=
  match s.busyIn with
  | l :: _ => l
  | [] => Config.panelBusy s.busyReads

/-- The busy input after one sample. -/
def busyNext (s : State) : State :=
  match s.busyIn with
  | _ :: rest => { s with busyIn := rest }
  | [] => { s with busyReads := s.busyReads + 1 }

/-- `v` of `BusySample(v)`: busy is asserted at BUSY_ACTIVE_LEVEL (41_epaper R230). -/
def busyAsserted (s : State) : Bool := busyLevel s == s.cfg.busyActiveLevel

/-- `SampleBusy()` after the oracle's answer: one event, the level consumed (41_epaper R230; 10_state R42). -/
def sampleBusy (s : State) : State := busyNext (emit (.busySample (busyAsserted s)) s)

/-- The electrical level of the chip-select output (10_state R47). -/
def csWire (s : State) : Level :=
  match s.pins.cs, s.cfg.csActiveLevel with
  | .assert, l => l
  | .deassert, .low => .high
  | .deassert, .high => .low

/-- The electrical level of the data/command output (10_state R48). -/
def dcWire (s : State) : Level :=
  match s.pins.dc, s.cfg.dcCmdLevel with
  | .cmd, l => l
  | .data, .low => .high
  | .data, .high => .low

/-! ### Transaction groups (00_scope R11 to R13) -/

/-- One transaction: DC, chip-select, the bytes, chip-select. -/
def transaction (l : DcLevel) (bytes : List BusOp) : List BusOp :=
  [.dc l, .cs .assert] ++ bytes ++ [.cs .deassert]

/-- `SendCmd` and `SendCmdSeq`: all the bytes in one command-level transaction (00_scope R11, R12). -/
def sendCmdOps (bytes : List Byte) : List BusOp :=
  transaction .cmd (bytes.map (fun b => .xfer b none))

/-- `SendData`: one transaction, or one per byte, as FRAMING says; no byte, no event (00_scope R13). -/
def sendDataOps (fr : Framing) (bytes : List Byte) : List BusOp :=
  match bytes, fr with
  | [], _ => []
  | _ :: _, .perBurst => transaction .data (bytes.map (fun b => .xfer b none))
  | _ :: _, .perByte => bytes.flatMap (fun b => transaction .data [.xfer b none])

/-- `SendData` of one pixel byte with its intended address (20_memory R95). -/
def sendPixelOps (b : Byte) (dest : Int × Int) : List BusOp :=
  transaction .data [.xfer b (some dest)]

end Sys2Proof.Machine
end

