-- ==== Sys2Proof/Machine/Operands.lean ====
section
/-! DEFINITION. The operand forms: configuration registers, address bytes, windows, pixel sources, glyphs and packers. -/

namespace Sys2Proof.Machine

/-! ### The configuration registers (10_state R45) -/

/-- WIDTH in pixels. -/
def width : Variant → Nat
  | .epd => 200
  | .goled => 128
  | .woled => 128

/-- HEIGHT in pixels. -/
def height : Variant → Nat
  | .epd => 200
  | .goled => 128
  | .woled => 64

/-- PIXEL_PER_BYTE. -/
def pixelPerByte : Variant → Nat
  | .epd => 8
  | .goled => 2
  | .woled => 8

/-- LIGHT_COLOR. -/
def lightColor (c : Config) : Color :=
  match c.variant with
  | .epd => 0
  | .goled => c.goledLight
  | .woled => 1

/-- DARK_COLOR. -/
def darkColor (c : Config) : Color :=
  match c.variant with
  | .epd => 1
  | .goled => c.goledDark
  | .woled => 0

/-! ### Address bytes on the wire (00_scope R18) -/

/-- `enc8(v)` at free draw `n`: the byte, and the number of the next draw. -/
def enc8 (n : Nat) (v : Int) : Byte × Nat :=
  if 0 ≤ v ∧ v ≤ 255 then (BitVec.ofInt 8 v, n) else (Config.freeByte n, n + 1)

/-- `enc16(v)` at free draw `n`: low byte, high byte, and the number of the next draw. -/
def enc16 (n : Nat) (v : Int) : Byte × Byte × Nat :=
  if 0 ≤ v ∧ v < 65536 then (BitVec.ofInt 8 v, BitVec.ofInt 8 (v / 256), n)
  else (Config.freeByte n, Config.freeByte (n + 1), n + 2)

/-- The sequencer comes to stand at the wire command `w`, and goes on at `p` when it is sent. -/
def standAt (w : WireWord) (p : Pos) (s : State) : State := { s with send := some w, pos := p }

/-- A command whose two operands are one address byte each, at command level (OLED window commands, 30_encoding R127, R128). -/
def standAtWindow (op : Byte) (first last : Int) (p : Pos) (s : State) : State :=
  let a := enc8 s.draws first
  let b := enc8 a.2 last
  standAt ⟨[op, a.1, b.1], []⟩ p { s with draws := b.2 }

/-- An EPD command whose payload is two address bytes (`0x44`, 41_epaper R222). -/
def standAtEpdPair (op : Byte) (first last : Int) (p : Pos) (s : State) : State :=
  let a := enc8 s.draws first
  let b := enc8 a.2 last
  standAt ⟨[op], [a.1, b.1]⟩ p { s with draws := b.2 }

/-- An EPD command whose payload is two 16-bit coordinates (`0x45`, 41_epaper R223). -/
def standAtEpdRows (op : Byte) (first last : Int) (p : Pos) (s : State) : State :=
  let a := enc16 s.draws first
  let b := enc16 a.2.2 last
  standAt ⟨[op], [a.1, a.2.1, b.1, b.2.1]⟩ p { s with draws := b.2.2 }

/-- An EPD command whose payload is one address byte (`0x4E`, 41_epaper R218). -/
def standAtEpdByte (op : Byte) (v : Int) (p : Pos) (s : State) : State :=
  let a := enc8 s.draws v
  standAt ⟨[op], [a.1]⟩ p { s with draws := a.2 }

/-- An EPD command whose payload is one 16-bit coordinate (`0x4F`, 41_epaper R219). -/
def standAtEpdHalf (op : Byte) (v : Int) (p : Pos) (s : State) : State :=
  let a := enc16 s.draws v
  standAt ⟨[op], [a.1, a.2.1]⟩ p { s with draws := a.2.2 }

/-! ### Windows -/

/-- A frame window (00_scope R22), unaligned. -/
structure Window where
  x : Int
  y : Int
  w : Int
  h : Int
deriving DecidableEq, Repr

/-- The unaligned window of the frame write in progress: the request's, the whole panel for CLEAR_FRAME (40 R168), or
the character cell (44_text R333). -/
def window (s : State) : Window :=
  match s.src with
  | .callback => ⟨s.latch.x.toNat, s.latch.y.toNat, s.latch.w.toNat, s.latch.h.toNat⟩
  | .buffer => ⟨s.latch.x.toNat, s.latch.y.toNat, s.latch.w.toNat, s.latch.h.toNat⟩
  | .constant => ⟨0, 0, width s.cfg.variant, height s.cfg.variant⟩
  | .text => ⟨s.text.cx, s.latch.y.toNat, 8, 8⟩

/-- EPD alignment and clipping (41_epaper R211). -/
def epdClip (win : Window) (e : EpdWork) : EpdWork :=
  let xa := win.x - win.x % 8
  let wa := win.w - win.w % 8
  { e with
    xa := xa
    wa := wa
    xe := if xa + wa ≥ 200 then 199 else xa + wa - 1
    ye := if win.y + win.h ≥ 200 then 199 else win.y + win.h - 1 }

/-- GN, the groups of a row (41_epaper R211). -/
def epdGroupCount (e : EpdWork) : Int := max 0 ((e.xe - e.xa + 1) / 8)

/-- GOLED halving and clipping (42_gray_oled R262). -/
def goledClip (win : Window) (g : GoledWork) : GoledWork :=
  let xc := win.x / 2
  let wc := win.w / 2
  { g with
    xc := xc
    wc := wc
    ce := min (xc + wc - 1) 63
    re := min (win.y + win.h - 1) 127 }

/-- WOLED pages and clipping (43_wide_oled R301). -/
def woledClip (win : Window) (o : WoledWork) : WoledWork :=
  let pg := win.y / 8
  let ph := win.h / 8
  { o with
    pg := pg
    ph := ph
    xe := min (win.x + win.w - 1) 127
    pe := min (pg + ph - 1) 7 }

/-! ### Pixel sources (20_memory R71, R73) -/

/-- `f(px, py)` of a pixel function. -/
def pixelFnAt (f : PixelFn) (px py : Int) : Color :=
  match f.cells.find? (fun e => e.1 == px && e.2.1 == py) with
  | some e => e.2.2
  | none => f.base

/-- The index of the buffer adapter (20_memory R73), or none outside its rectangle or at or beyond its length `len`. -/
def adapterIndex (win : Window) (len : Nat) (px py : Int) : Option Nat :=
  let row := py - win.y
  let col := px - win.x
  if row < 0 ∨ row ≥ win.h ∨ col < 0 ∨ col ≥ win.w then none
  else
    let i := (row * win.w + col).toNat
    if i ≥ len then none else some i

/-- `Pix(px, py)` of the frame write in progress: a Color, or none where the adapter raises ADAPTER_RANGE. -/
def pix (s : State) (px py : Int) : Option Color :=
  match s.src with
  | .callback => some (pixelFnAt s.ports.f px py)
  | .constant => some s.latch.c0
  | .buffer => (adapterIndex (window s) s.ports.buf.length px py).bind (fun i => s.ports.buf[i]?)
  | .text => (adapterIndex (window s) 64 px py).bind (fun i => s.tb[i]?)

/-! ### Reads of the block's inputs -/

/-- One read of an input (00_scope R17): the input's value, or where the host has changed the input while the request runs,
a free draw of the kind read (20_memory R94; log 26). -/
def hostRead {α : Type} (value : α) (free : Byte → α) (s : State) : α × State :=
  match s.changed with
  | [] => (value, s)
  | false :: rest => (value, { s with changed := rest })
  | true :: rest => (free (Config.freeByte s.draws), { s with changed := rest, draws := s.draws + 1 })

/-- Any Color of the variant (00_scope R10). -/
def freeColor (v : Variant) (b : Byte) : Color :=
  match v with
  | .goled => b
  | .epd => b &&& 1
  | .woled => b &&& 1

/-- One read of a Color `c` of the pixel source: the host's function and buffer are inputs, the constant of CLEAR_FRAME and
TB are the block's own. -/
def pixRead (c : Color) (s : State) : Color × State :=
  match s.src with
  | .callback => hostRead c (freeColor s.cfg.variant) s
  | .buffer => hostRead c (freeColor s.cfg.variant) s
  | .constant => (c, s)
  | .text => (c, s)

/-! ### Glyphs and packers -/

/-- `Glyph(ch, r, c)` (20_memory R75). -/
def glyphBit (c : Config) (ch : Byte) (r col : Nat) : Bool :=
  ((c.glyph[ch.toNat]?).getD 0).getLsbD (8 * r + col)

/-- `bit(c)` of a 1-bit Color (00_scope R10), as a byte. -/
def bitOf (c : Color) : Byte := c &&& 1

/-- One pixel shifted into SR: `((SR << 1) | bit(c)) mod 256` (41_epaper R211; 43_wide_oled R301). -/
def shiftIn (sr : Byte) (c : Color) : Byte := (sr <<< 1) ||| bitOf c

/-- The nibble packer `((L << 4) mod 256) | (RT & 0xF)` (42_gray_oled R265). -/
def packNibbles (l rt : Color) : Byte := (l <<< 4) ||| (rt &&& 0xF)

end Sys2Proof.Machine
end

