-- ==== Sys2Proof/Machine/Flags.lean ====
section
/-! DEFINITION. The conditions a request computes. The block has no flag of any kind (10_state R44): these are the
checks of 30_encoding R119 and the tests of the unit algorithms, none of them stored. -/

namespace Sys2Proof.Machine

/-- `X + W <= 65535` and `Y + H <= 65535` (30_encoding R113, frame writes). -/
def windowLimitOk (x y w h : Half) : Bool :=
  decide (x.toNat + w.toNat ≤ 65535) && decide (y.toNat + h.toNat ≤ 65535)

/-- `X + 8*N <= 65535` and `Y + 8 <= 65535` (30_encoding R113, DRAW_TEXT). -/
def textLimitOk (x y n : Half) : Bool :=
  decide (x.toNat + 8 * n.toNat ≤ 65535) && decide (y.toNat + 8 ≤ 65535)

/-- A color field is legal on the variant (30_encoding R114). -/
def colorFieldOk (v : Variant) (c : Byte) : Bool :=
  match v with
  | .goled => true
  | .epd => decide (c.toNat ≤ 1)
  | .woled => decide (c.toNat ≤ 1)

/-- The early-return guard of the GOLED unit (42_gray_oled R261). -/
def goledGuard (win : Window) : Bool :=
  decide (win.x / 2 ≥ 64) || decide (win.y > 128) || decide (win.w / 2 = 0) || decide (win.h = 0)

/-- The clipped EPD window is degenerate (20_memory R83). -/
def epdDegenerate (win : Window) (e : EpdWork) : Bool :=
  decide (e.xe < e.xa) || decide (e.ye < win.y)

/-- The clipped GOLED window is degenerate (20_memory R83; 42_gray_oled R262). -/
def goledDegenerate (win : Window) (g : GoledWork) : Bool :=
  decide (g.ce < g.xc) || decide (g.re < win.y)

/-- The clipped WOLED window is degenerate (20_memory R83; 43_wide_oled R302). -/
def woledDegenerate (win : Window) (o : WoledWork) : Bool :=
  decide (o.xe < win.x) || decide (o.pe < o.pg)

/-- Check (4) of 30_encoding R119 raises DEGENERATE. -/
def refusesDegenerate (c : Config) (degenerate : Bool) : Bool :=
  (c.degenerateExtent == .fault) && degenerate

end Sys2Proof.Machine
end

