-- ==== Sys2Proof/Machine/Sequencer.lean ====
section
/-! DEFINITION. The sequencer: the unit algorithms as positions and moves between them. `resume` moves from the end of
one event to the next point at which an event or a read happens; `seqStep` is the event or read at such a point;
`driveBus` is one event of a transaction. None of them runs a loop: each answers after one event or read (20_memory R91). -/

namespace Sys2Proof.Machine

/-- The pseudocode of a request returns: `MODE <- IDLE` (40 R160), with its last event, or at its acceptance where it has
none (log 28, log 29). -/
def finishRequest (s : State) : State := { s with mode := .idle, pos := .idle }

/-! ### Frame writes -/

/-- The end of a character's sub-write: `CX <- CX + 8`, and the next byte of the string if there is one
(44_text R331, R335). MODE stays WRITING until the last (R333). After the last character I is left at N and CX at
`x + 8*N`, the model's choice (log 27). -/
def nextChar (s : State) : State :=
  let t := { s.text with cx := s.text.cx + 8, i := s.text.i + 1 }
  if t.i < s.latch.w.toNat then { s with text := t, pos := .readChar }
  else finishRequest { s with text := t }

/-- The end of a unit's write algorithm. -/
def writeDone (s : State) : State :=
  match s.src with
  | .text => nextChar s
  | .callback => finishRequest s
  | .buffer => finishRequest s
  | .constant => finishRequest s

/-- EPD: the window is computed and the sequencer stands at `0x44` (41_epaper R211, R222). -/
def epdBegin (win : Window) (s : State) : State :=
  let e := epdClip win s.epd
  standAtEpdPair 0x44 (e.xa / 8) (e.xe / 8) .epdYWindow { s with mode := .writing, epd := e }

/-- EPD: row `j` of `for J in y..YE`, at its X pointer, or the end of the write (41_epaper R211, R214). -/
def epdRowOrEnd (j : Int) (s : State) : State :=
  if j ≤ s.epd.ye then
    standAtEpdByte 0x4E (s.epd.xa / 8) .epdYPointer { s with epd := { s.epd with j := j } }
  else writeDone s

/-- EPD: group `g` of `for G in 0..GN-1`, at its first query with SR cleared, or the next row (41_epaper R211). -/
def epdGroupOrRow (g : Int) (s : State) : State :=
  if g < epdGroupCount s.epd then
    { s with sr := 0, epd := { s.epd with g := g, k := 0 }, pos := .epdPixel }
  else epdRowOrEnd (s.epd.j + 1) s

/-- GOLED: the window is computed and the sequencer stands at `0x15` (42_gray_oled R262, R270). -/
def goledBegin (win : Window) (s : State) : State :=
  let g := goledClip win s.goled
  standAtWindow 0x15 g.xc g.ce .goledRowWindow { s with mode := .writing, goled := g }

/-- GOLED: row `r` of `for R in y..RE`, at the left query of its first pair with SR cleared (10_state R51), or the end
(42_gray_oled R262). Where the window has rows and no pair, the rows emit and read nothing and the write ends at once, R
unwritten: that R does not step to RE is the model's choice (log 27). -/
def goledRowOrEnd (r : Int) (s : State) : State :=
  if r ≤ s.goled.re ∧ s.goled.xc ≤ s.goled.ce then
    { s with sr := 0, goled := { s.goled with r := r, c := s.goled.xc }, pos := .goledLeft }
  else writeDone s

/-- GOLED: the pair after the one sent, with SR cleared (10_state R51), or the next row (42_gray_oled R262). -/
def goledNext (s : State) : State :=
  if s.goled.c + 1 ≤ s.goled.ce then
    { s with sr := 0, goled := { s.goled with c := s.goled.c + 1 }, pos := .goledLeft }
  else goledRowOrEnd (s.goled.r + 1) s

/-- WOLED: the window is computed and the sequencer stands at `0x21` (43_wide_oled R301, R314). -/
def woledBegin (win : Window) (s : State) : State :=
  let o := woledClip win s.woled
  standAtWindow 0x21 win.x o.xe .woledPageWindow { s with mode := .writing, woled := o }

/-- WOLED: page `p` of `for P in PG..PE`, at the bottom query of its first column with SR cleared, or the end
(43_wide_oled R301). Where the window has pages and no column, the pages emit and read nothing and the write ends at once,
P unwritten: that P does not step to PE is the model's choice (log 27). -/
def woledPageOrEnd (p : Int) (s : State) : State :=
  if p ≤ s.woled.pe ∧ (window s).x ≤ s.woled.xe then
    { s with sr := 0, woled := { s.woled with p := p, c := (window s).x, off := 7 }, pos := .woledPixel }
  else writeDone s

/-- WOLED: the column after the one sent, or the next page (43_wide_oled R301). -/
def woledNext (s : State) : State :=
  if s.woled.c + 1 ≤ s.woled.xe then
    { s with sr := 0, woled := { s.woled with c := s.woled.c + 1, off := 7 }, pos := .woledPixel }
  else woledPageOrEnd (s.woled.p + 1) s

/-- The unit's write algorithm from its first step, over `window s`: the GOLED guard (42_gray_oled R261), check (4) of
30_encoding R119, then the first window command. -/
def startWrite (s : State) : State :=
  let win := window s
  match s.cfg.variant with
  | .epd =>
    if refusesDegenerate s.cfg (epdDegenerate win (epdClip win s.epd)) then raiseFault .degenerate s
    else epdBegin win s
  | .goled =>
    if goledGuard win then writeDone s
    else if refusesDegenerate s.cfg (goledDegenerate win (goledClip win s.goled)) then raiseFault .degenerate s
    else goledBegin win s
  | .woled =>
    if refusesDegenerate s.cfg (woledDegenerate win (woledClip win s.woled)) then raiseFault .degenerate s
    else woledBegin win s

/-! ### Initialisation -/

/-- The next action of EPD_INIT_SEQ, or the end of INIT (41_epaper R201). -/
def epdInitNext (rest : List InitAction) (s : State) : State :=
  match rest with
  | [] => finishRequest s
  | .cmd op payload :: r => standAt ⟨[op], payload⟩ (.epdInit r) s
  | .wait :: r => { s with pos := .sample (.init r) }
  | .pause ms :: r => { s with pos := .pause ms r }

/-- The next command of GOLED_INIT_BLOCK, or the closing delay (42_gray_oled R250). -/
def goledInitNext (rest : List (List Byte)) (s : State) : State :=
  match rest with
  | [] => { s with pos := .goledPost }
  | k :: r => standAt ⟨k, []⟩ (.goledBlock r) s

/-- The four WOLED initialisation commands, in order (43_wide_oled R290, R292). -/
def woledInitCommands : List (List Byte) := [[0x20, 0x00], [0xA1], [0xC8], [0xAF]]

/-- The next WOLED initialisation command, or the end of INIT (43_wide_oled R290). -/
def woledInitNext (rest : List (List Byte)) (s : State) : State :=
  match rest with
  | [] => finishRequest s
  | k :: r => standAt ⟨k, []⟩ (.woledInit r) s

/-! ### Moves -/

/-- From the end of a transaction group (or another event) to the next point at which an event or a read happens, with the
moves of MODE on the way (log 29). -/
def resume (s : State) : State :=
  match s.pos with
  | .epdInit rest => epdInitNext rest s
  | .epdYWindow => standAtEpdRows 0x45 (window s).y s.epd.ye .epdRows s
  | .epdRows => epdRowOrEnd (window s).y s
  | .epdYPointer => standAtEpdHalf 0x4F s.epd.j .epdPointerSet s
  | .epdPointerSet => { s with mode := .waitPointer, pos := .sample .pointer }
  | .epdGroups => epdGroupOrRow 0 s
  | .epdNextGroup => epdGroupOrRow (s.epd.g + 1) s
  | .goledBlock rest => goledInitNext rest s
  | .goledRowWindow => standAtWindow 0x75 (window s).y s.goled.re .goledRows s
  | .goledRows => goledRowOrEnd (window s).y s
  | .goledNextPair => goledNext s
  | .woledInit rest => woledInitNext rest s
  | .woledPageWindow => standAtWindow 0x22 s.woled.pg s.woled.pe .woledPages s
  | .woledPages => woledPageOrEnd s.woled.pg s
  | .woledNextColumn => woledNext s
  | .idle | .raising _ | .halting _ | .respond _ | .resetLow | .resetHold | .resetHigh | .resetSettle | .pause _ _
  | .sample _ | .poll _ | .epdPixel | .goledPre | .goledPost | .goledLeft | .goledRight | .woledDelay1 | .woledDelay2
  | .woledPixel | .readChar | .readGlyph => s

/-- The end of `WaitBusy()` (41_epaper R230) at each of its places. The commit's wait ends with `VIS_E <- FM_E`
(41_epaper R240; 20_memory R97); the pointer's, with MODE back to WRITING and `0x24` due (41_epaper R211, R229). -/
def waitDone (site : WaitSite) (s : State) : State :=
  match site with
  | .init rest => resume { s with pos := .epdInit rest }
  | .pointer => standAt ⟨[0x24], []⟩ .epdGroups { s with mode := .writing }
  | .commit => finishRequest { s with vis := s.fm }

/-! ### Reads -/

/-- One query of `Pix` (20_memory R72): the read, then `k` with its Color; outside the adapter's buffer, ADAPTER_RANGE at
the query (R73). -/
def query (px py : Int) (s : State) (k : Color → State → State) : State :=
  match pix s px py with
  | some c =>
    let r := pixRead c s
    k r.1 r.2
  | none => takeFault .adapterRange s

/-- EPD: pixel K of the group, left to right; after the eighth the byte in SR is due (41_epaper R211, R215). -/
def epdReadPixel (s : State) : State :=
  query (s.epd.xa + 8 * s.epd.g + s.epd.k) s.epd.j s (fun c s =>
    let sr := shiftIn s.sr c
    if s.epd.k < 7 then { s with sr := sr, epd := { s.epd with k := s.epd.k + 1 } }
    else standAt ⟨[], [sr]⟩ .epdNextGroup { s with sr := sr })

/-- GOLED: `L <- Pix(2*C, R)` (42_gray_oled R262). -/
def goledReadLeft (s : State) : State :=
  query (2 * s.goled.c) s.goled.r s (fun c s =>
    { s with goled := { s.goled with l := c }, pos := .goledRight })

/-- GOLED: `RT <- Pix(2*C + 1, R)`; the packed byte is due (42_gray_oled R262, R265). -/
def goledReadRight (s : State) : State :=
  query (2 * s.goled.c + 1) s.goled.r s (fun c s =>
    let sr := packNibbles s.goled.l c
    standAt ⟨[], [sr]⟩ .goledNextPair { s with sr := sr, goled := { s.goled with rt := c } })

/-- WOLED: the pixel at OFF, bottom to top; after the topmost the byte in SR is due (43_wide_oled R301, R304). -/
def woledReadPixel (s : State) : State :=
  query s.woled.c (8 * s.woled.p + s.woled.off) s (fun c s =>
    let sr := shiftIn s.sr c
    if 0 < s.woled.off then { s with sr := sr, woled := { s.woled with off := s.woled.off - 1 } }
    else standAt ⟨[], [sr]⟩ .woledNextColumn { s with sr := sr })

/-- `StrRead(I)` (20_memory R74). A byte the host did not bind is a free draw (log 12). -/
def strRead (s : State) : Byte × State :=
  match s.ports.str[s.text.i]? with
  | some b => hostRead b id s
  | none => (Config.freeByte s.draws, { s with changed := s.changed.tail, draws := s.draws + 1 })

/-- `CH <- StrRead(I)` (44_text R331). -/
def readChar (s : State) : State :=
  let r := strRead s
  { r.2 with text := { s.text with ch := r.1, gr := 0, gc := 0 }, pos := .readGlyph }

/-- `Glyph(CH, R, C)` (20_memory R75) as one read. -/
def glyphRead (s : State) : Bool × State :=
  hostRead (glyphBit s.cfg s.text.ch s.text.gr s.text.gc) (fun b => b.getLsbD 0) s

/-- One glyph bit into TB: foreground where it is set, background where it is clear (44_text R331, R332); after the
sixty-fourth the character's sub-write begins over TB (R333). -/
def readGlyph (s : State) : State :=
  let r := glyphRead s
  let color := if r.1 then s.latch.c0 else s.latch.c1
  let s : State := { r.2 with tb := s.tb.setIfInBounds (8 * s.text.gr + s.text.gc) color }
  if s.text.gc < 7 then { s with text := { s.text with gc := s.text.gc + 1 } }
  else if s.text.gr < 7 then { s with text := { s.text with gr := s.text.gr + 1, gc := 0 } }
  else startWrite { s with src := .text }

/-! ### Accepting a request, and the step at a point -/

/-- The latch a descriptor is copied into (30_encoding R110, R111, R120). -/
def latchOf (d : Vector Byte 12) : Latch :=
  ⟨d[0], d[1], d[2], d[3], half d[4] d[5], half d[6] d[7], half d[8] d[9], half d[10] d[11]⟩

/-- The request the block would accept: the next one the host presents, in UNINIT or IDLE with no request in progress
(10_state R40; 40 R163). -/
def presented (s : State) : Option HostRequest :=
  match s.pos, s.mode with
  | .idle, .uninit => s.host.head?
  | .idle, .idle => s.host.head?
  | _, _ => none

/-- Acceptance: the descriptor is copied into the latch, with its bindings, emitting no event (30_encoding R110). -/
def accept (r : HostRequest) (s : State) : State :=
  { s with latch := latchOf r.desc, ports := r.ports, host := s.host.tail }

/-- The event or read at the point where the sequencer stands, no wire command being due. -/
def seqStep (s : State) : State :=
  match s.pos with
  | .idle => s
  | .raising code => takeFault code s
  | .halting code => halt code s
  | .respond v => finishRequest (emit (.respond v) s)
  | .resetLow => pinOp s (fun s => { driveRst .low s with pos := .resetHold })
  | .resetHold => { emit (.delay s.cfg.resetLowMs) s with pos := .resetHigh }
  | .resetHigh => pinOp s (fun s => { driveRst .high s with pos := .resetSettle })
  | .resetSettle =>
    epdInitNext s.cfg.epdInitSeq { emit (.delay s.cfg.resetSettleMs) s with mode := .initializing }
  | .pause ms rest => epdInitNext rest (emit (.delay ms) s)
  | .sample site =>
    pinOp s (fun s =>
      if busyAsserted s then { sampleBusy s with pos := .poll site } else waitDone site (sampleBusy s))
  | .poll site => { emit (.delay s.cfg.pollMs) s with pos := .sample site }
  | .epdPixel => epdReadPixel s
  | .goledPre => goledInitNext s.cfg.goledInitBlock (emit (.delay s.cfg.goledDPre) s)
  | .goledPost => finishRequest (emit (.delay s.cfg.goledDPost) s)
  | .goledLeft => goledReadLeft s
  | .goledRight => goledReadRight s
  | .woledDelay1 => { emit (.delay s.cfg.woledD1) s with pos := .woledDelay2 }
  | .woledDelay2 => woledInitNext woledInitCommands (emit (.delay s.cfg.woledD2) s)
  | .woledPixel => woledReadPixel s
  | .readChar => readChar s
  | .readGlyph => readGlyph s
  -- Moves, made at the end of the event before them.
  | .epdInit _ | .epdYWindow | .epdRows | .epdYPointer | .epdPointerSet | .epdGroups | .epdNextGroup
  | .goledBlock _ | .goledRowWindow | .goledRows | .goledNextPair | .woledInit _ | .woledPageWindow | .woledPages
  | .woledNextColumn => resume s

/-- After an event of a transaction group: the next one is on the bus, or the sequencer moves on. -/
def settle (s : State) : State :=
  match s.bus, s.send with
  | [], none => resume s
  | _, _ => s

/-- `settle` after a byte transfer. -/
def settleAfter : Host.Outcome State Fault Refusal → Host.Outcome State Fault Refusal
  | .next s => .next (settle s)
  | .fault f => .fault f
  | .refused r => .refused r

/-- One event of the transaction group in progress: the operation at the head of the bus, which the oracle may fail
(20_memory R91; 60_exceptions R363, R364). -/
def driveBus (s : State) : Host.Outcome State Fault Refusal :=
  match s.bus with
  | [] => .next s
  | .dc l :: rest => .next (pinOp { s with bus := rest } (fun s => settle (driveDc l s)))
  | .cs l :: rest => .next (pinOp { s with bus := rest } (fun s => settle (driveCs l s)))
  | .xfer b dest :: rest => busOp { s with bus := rest } (fun s => settleAfter (transfer b dest s))

/-- A WIRE COMMAND: on an instance of its variant, its events go on the bus and the first of them happens. In HALTED
nothing happens (10_state R41); on another variant the command does not exist (30_encoding R123). -/
def issue (v : Variant) (ops : List BusOp) (s : State) : Host.Outcome State Fault Refusal :=
  if s.mode = .halted then .next s
  else if s.cfg.variant = v then driveBus { s with send := none, bus := s.bus ++ ops }
  else .refused .notInVariant

/-- A REQUEST as it is accepted: its operands are in the latch; check (2) of 30_encoding R119 (40 R162), check (3), and
then its pseudocode goes with `go` to its first event or read, which is the next step's (log 1). A check that fails goes to
`raise Fault`. In every other mode the request waits (30_encoding R110). -/
def serve (isInit : Bool) (l : Latch) (argumentsOk : Bool) (go : State → State) (s : State) :
    Host.Outcome State Fault Refusal :=
  match s.mode with
  | .uninit =>
    if isInit then .next (go { s with latch := l }) else .next (raiseFault .illegalState { s with latch := l })
  | .idle =>
    if isInit then .next (raiseFault .illegalState { s with latch := l })
    else if argumentsOk then .next (go { s with latch := l })
    else .next (raiseFault .illegalArgument { s with latch := l })
  | .resetting | .initializing | .writing | .waitPointer | .busyUpdating | .halted => .next s

end Sys2Proof.Machine
end

