-- ==== Sys2Proof/Machine/EpdWire.lean ====
section
/-! DEFINITION. The meanings of the EPD wire commands (41_epaper R218 to R229) and of its pixel byte (R215, R216). -/

namespace Sys2Proof.Machine

/-- An EPD command: its opcode at command level, then its payload as a data burst (30_encoding R122). -/
def epdCommand (op : Byte) (payload : List Byte) (s : State) : Host.Outcome State Fault Refusal :=
  issue .epd (sendCmdOps [op] ++ sendDataOps s.cfg.framing payload) s

/-- `0x01` driver output control (41_epaper R220). -/
def execEpdDriverOutputControl (payload : List Byte) (s : State) : Host.Outcome State Fault Refusal :=
  epdCommand 0x01 payload s

/-- `0x11` data entry mode (41_epaper R221). -/
def execEpdDataEntryMode (payload : List Byte) (s : State) : Host.Outcome State Fault Refusal :=
  epdCommand 0x11 payload s

/-- `0x44` X address window (41_epaper R222). -/
def execEpdSetRamXWindow (payload : List Byte) (s : State) : Host.Outcome State Fault Refusal :=
  epdCommand 0x44 payload s

/-- `0x45` Y address window (41_epaper R223). -/
def execEpdSetRamYWindow (payload : List Byte) (s : State) : Host.Outcome State Fault Refusal :=
  epdCommand 0x45 payload s

/-- `0x3C` border (41_epaper R224). -/
def execEpdBorder (payload : List Byte) (s : State) : Host.Outcome State Fault Refusal :=
  epdCommand 0x3C payload s

/-- `0x21` display update control (41_epaper R225). -/
def execEpdDisplayUpdateControl (payload : List Byte) (s : State) : Host.Outcome State Fault Refusal :=
  epdCommand 0x21 payload s

/-- `0x18` temperature sensor (41_epaper R226). -/
def execEpdTemperatureSensor (payload : List Byte) (s : State) : Host.Outcome State Fault Refusal :=
  epdCommand 0x18 payload s

/-- `0x22` update sequence select (41_epaper R227). -/
def execEpdUpdateSequenceSelect (payload : List Byte) (s : State) : Host.Outcome State Fault Refusal :=
  epdCommand 0x22 payload s

/-- `0x20` activate display update (41_epaper R228): from DISPLAY_FRAME with no payload, in INIT with the payload
EPD_INIT_SEQ gives (R201, R205; log 25). -/
def execEpdActivateUpdate (s : State) (payload : List Byte := []) : Host.Outcome State Fault Refusal :=
  epdCommand 0x20 payload s

/-- `0x24` write RAM (41_epaper R229): in a frame write no payload of its own, the row's pixel bytes being the
`EPD.PIXEL_DATA` that follow; in INIT the payload EPD_INIT_SEQ gives, which has no intended address (log 16). -/
def execEpdWriteRam (payload : List Byte) (s : State) : Host.Outcome State Fault Refusal :=
  epdCommand 0x24 payload s

/-- `0x4E` set RAM pointer X (41_epaper R218). -/
def execEpdSetRamXPointer (payload : List Byte) (s : State) : Host.Outcome State Fault Refusal :=
  epdCommand 0x4E payload s

/-- `0x4F` set RAM pointer Y (41_epaper R219). -/
def execEpdSetRamYPointer (payload : List Byte) (s : State) : Host.Outcome State Fault Refusal :=
  epdCommand 0x4F payload s

/-- The unit a pixel byte of the current group is for: `FM_E[XA div 8 + G][J]` (41_epaper R216). -/
def epdPixelDest (e : EpdWork) : Int × Int := (e.xa / 8 + e.g, e.j)

/-- A pixel byte: one data-level byte, for its intended address (41_epaper R215, R216). -/
def execEpdPixelData (b : Byte) (s : State) : Host.Outcome State Fault Refusal :=
  issue .epd (sendPixelOps b (epdPixelDest s.epd)) s

end Sys2Proof.Machine
end

