-- ==== Sys2Proof/Machine/GoledWire.lean ====
section
/-! DEFINITION. The meanings of the GOLED wire commands (42_gray_oled R251, R270, R271) and of its pixel byte (R265, R266). -/

namespace Sys2Proof.Machine

/-- `0x15` set column window: three bytes in one command-level transaction (42_gray_oled R270). -/
def execGoledSetColumnWindow (first last : Byte) (s : State) : Host.Outcome State Fault Refusal :=
  issue .goled (sendCmdOps [0x15, first, last]) s

/-- `0x75` set row window: three bytes in one command-level transaction (42_gray_oled R271). -/
def execGoledSetRowWindow (first last : Byte) (s : State) : Host.Outcome State Fault Refusal :=
  issue .goled (sendCmdOps [0x75, first, last]) s

/-- One command of GOLED_INIT_BLOCK: its bytes in one command-level transaction (42_gray_oled R250, R251). -/
def execGoledInitBlock (bytes : List Byte) (s : State) : Host.Outcome State Fault Refusal :=
  issue .goled (sendCmdOps bytes) s

/-- The unit a pixel byte of the current pair is for: `FM_G[C][R]` (42_gray_oled R266). -/
def goledPixelDest (g : GoledWork) : Int × Int := (g.c, g.r)

/-- A pixel byte: one data-level byte, for its intended address (42_gray_oled R265, R266). -/
def execGoledPixelData (b : Byte) (s : State) : Host.Outcome State Fault Refusal :=
  issue .goled (sendPixelOps b (goledPixelDest s.goled)) s

end Sys2Proof.Machine
end

