-- ==== Sys2Proof/Machine/Requests.lean ====
section
/-! DEFINITION. The meanings of the eleven requests (40_interface_ops). A request's events are the sequencer's next steps,
one a step (20_memory R91); what it does as it is accepted, with no event (30_encoding R110), is its checks, the latch,
MODE (10_state R37, R38), its working registers and the point it starts at. -/

namespace Sys2Proof.Machine

/-- INIT (40 R164): the unit's initialisation begins (41_epaper R201, 42_gray_oled R250, 43_wide_oled R290). -/
def execInit (s : State) : Host.Outcome State Fault Refusal :=
  serve true ⟨0x01, 0, 0, 0, 0, 0, 0, 0⟩ true (fun s =>
    match s.cfg.variant with
    | .epd => { s with mode := .resetting, pos := .resetLow }
    | .goled => { s with mode := .initializing, pos := .goledPre }
    | .woled => { s with mode := .initializing, pos := .woledDelay1 }) s

/-- SET_FRAME_CALLBACK (40 R165): the unit's write algorithm over the pixel function. -/
def execSetFrameCallback (x y w h : Half) (s : State) : Host.Outcome State Fault Refusal :=
  serve false ⟨0x02, 0, 0, 0, x, y, w, h⟩ (windowLimitOk x y w h)
    (fun s => startWrite { s with src := .callback }) s

/-- SET_FRAME_BUFFER (40 R166): the same over the buffer adapter (20_memory R73). -/
def execSetFrameBuffer (x y w h : Half) (s : State) : Host.Outcome State Fault Refusal :=
  serve false ⟨0x03, 0, 0, 0, x, y, w, h⟩ (windowLimitOk x y w h)
    (fun s => startWrite { s with src := .buffer }) s

/-- CLEAR_FRAME (40 R168): the same over the whole panel and a constant. -/
def execClearFrame (c : Byte) (s : State) : Host.Outcome State Fault Refusal :=
  serve false ⟨0x04, c, 0, 0, 0, 0, 0, 0⟩ (colorFieldOk s.cfg.variant c)
    (fun s => startWrite { s with src := .constant }) s

/-- DISPLAY_FRAME (40 R170): on EPD the commit (41_epaper R240); on GOLED and WOLED no event (42 R280, 43 R320). -/
def execDisplayFrame (s : State) : Host.Outcome State Fault Refusal :=
  serve false ⟨0x05, 0, 0, 0, 0, 0, 0, 0⟩ true (fun s =>
    match s.cfg.variant with
    | .epd => standAt ⟨[0x20], []⟩ (.sample .commit) { s with mode := .busyUpdating }
    | .goled => finishRequest s
    | .woled => finishRequest s) s

/-- DRAW_TEXT (40 R176; 44_text R331): the cursor at x, MODE WRITING, and the first byte of the string; an empty
string ends at once (44_text R338). -/
def execDrawText (fg bg : Byte) (x y n : Half) (s : State) : Host.Outcome State Fault Refusal :=
  serve false ⟨0x06, fg, bg, 0, x, y, n, 0⟩
    (textLimitOk x y n && colorFieldOk s.cfg.variant fg && colorFieldOk s.cfg.variant bg) (fun s =>
      let t := { s with src := .text, text := { s.text with cx := x.toNat, i := 0 } }
      if n = 0 then finishRequest t else { t with mode := .writing, pos := .readChar }) s

/-- A read accessor: its one event is `Respond(v)`, no wire event (40 R171 to R175). -/
def respond (op : Byte) (v : Half) (s : State) : Host.Outcome State Fault Refusal :=
  serve false ⟨op, 0, 0, 0, 0, 0, 0, 0⟩ true (fun s => { s with pos := .respond v }) s

/-- RD_WIDTH (40 R171). -/
def execRdWidth (s : State) : Host.Outcome State Fault Refusal :=
  respond 0x10 (BitVec.ofNat 16 (width s.cfg.variant)) s

/-- RD_HEIGHT (40 R172). -/
def execRdHeight (s : State) : Host.Outcome State Fault Refusal :=
  respond 0x11 (BitVec.ofNat 16 (height s.cfg.variant)) s

/-- RD_PPB (40 R173). -/
def execRdPpb (s : State) : Host.Outcome State Fault Refusal :=
  respond 0x12 (BitVec.ofNat 16 (pixelPerByte s.cfg.variant)) s

/-- RD_LIGHT (40 R174): the Color zero-extended to 16 bits. -/
def execRdLight (s : State) : Host.Outcome State Fault Refusal :=
  respond 0x13 ((lightColor s.cfg).setWidth 16) s

/-- RD_DARK (40 R175): the Color zero-extended to 16 bits. -/
def execRdDark (s : State) : Host.Outcome State Fault Refusal :=
  respond 0x14 ((darkColor s.cfg).setWidth 16) s

end Sys2Proof.Machine
end

