-- ==== Sys2Proof/Machine/WoledWire.lean ====
section
/-! DEFINITION. The meanings of the WOLED wire commands (43_wide_oled R310 to R315) and of its pixel byte (R304, R305). -/

namespace Sys2Proof.Machine

/-- `0x20 0x00` horizontal addressing mode: two bytes in one command-level transaction (43_wide_oled R310). -/
def execWoledSetAddressingModeHorizontal (s : State) : Host.Outcome State Fault Refusal :=
  issue .woled (sendCmdOps [0x20, 0x00]) s

/-- `0xA1` flip vertical (43_wide_oled R311). -/
def execWoledFlipVertical (s : State) : Host.Outcome State Fault Refusal :=
  issue .woled (sendCmdOps [0xA1]) s

/-- `0xC8` flip horizontal (43_wide_oled R312). -/
def execWoledFlipHorizontal (s : State) : Host.Outcome State Fault Refusal :=
  issue .woled (sendCmdOps [0xC8]) s

/-- `0xAF` display on (43_wide_oled R313). -/
def execWoledDisplayOn (s : State) : Host.Outcome State Fault Refusal :=
  issue .woled (sendCmdOps [0xAF]) s

/-- `0x21` set column window: three bytes in one command-level transaction (43_wide_oled R314). -/
def execWoledSetColumnWindow (first last : Byte) (s : State) : Host.Outcome State Fault Refusal :=
  issue .woled (sendCmdOps [0x21, first, last]) s

/-- `0x22` set page window: three bytes in one command-level transaction (43_wide_oled R315). -/
def execWoledSetPageWindow (first last : Byte) (s : State) : Host.Outcome State Fault Refusal :=
  issue .woled (sendCmdOps [0x22, first, last]) s

/-- The unit a pixel byte of the current column is for: `FM_W[C][P]` (43_wide_oled R305). -/
def woledPixelDest (o : WoledWork) : Int × Int := (o.c, o.p)

/-- A pixel byte: one data-level byte, for its intended address (43_wide_oled R304, R305). -/
def execWoledPixelData (b : Byte) (s : State) : Host.Outcome State Fault Refusal :=
  issue .woled (sendPixelOps b (woledPixelDest s.woled)) s

end Sys2Proof.Machine
end

