-- ==== Sys2Proof/Machine/Dispatch.lean ====
section
/-! DEFINITION. One arm per instruction, each one call of its meaning. -/

namespace Sys2Proof.Machine

/-- What an instruction does in a state. -/
def exec (i : Instr) (s : State) : Host.Outcome State Fault Refusal :=
  match i with
  | .init => Sys2Proof.Machine.execInit s
  | .setFrameCallback x y w h => Sys2Proof.Machine.execSetFrameCallback x y w h s
  | .setFrameBuffer x y w h => Sys2Proof.Machine.execSetFrameBuffer x y w h s
  | .clearFrame c => Sys2Proof.Machine.execClearFrame c s
  | .displayFrame => Sys2Proof.Machine.execDisplayFrame s
  | .drawText fg bg x y n => Sys2Proof.Machine.execDrawText fg bg x y n s
  | .rdWidth => Sys2Proof.Machine.execRdWidth s
  | .rdHeight => Sys2Proof.Machine.execRdHeight s
  | .rdPpb => Sys2Proof.Machine.execRdPpb s
  | .rdLight => Sys2Proof.Machine.execRdLight s
  | .rdDark => Sys2Proof.Machine.execRdDark s
  | .epdDriverOutputControl payload => Sys2Proof.Machine.execEpdDriverOutputControl payload s
  | .epdDataEntryMode payload => Sys2Proof.Machine.execEpdDataEntryMode payload s
  | .epdSetRamXWindow payload => Sys2Proof.Machine.execEpdSetRamXWindow payload s
  | .epdSetRamYWindow payload => Sys2Proof.Machine.execEpdSetRamYWindow payload s
  | .epdBorder payload => Sys2Proof.Machine.execEpdBorder payload s
  | .epdDisplayUpdateControl payload => Sys2Proof.Machine.execEpdDisplayUpdateControl payload s
  | .epdTemperatureSensor payload => Sys2Proof.Machine.execEpdTemperatureSensor payload s
  | .epdUpdateSequenceSelect payload => Sys2Proof.Machine.execEpdUpdateSequenceSelect payload s
  | .epdActivateUpdate payload => Sys2Proof.Machine.execEpdActivateUpdate s payload
  | .epdWriteRam payload => Sys2Proof.Machine.execEpdWriteRam payload s
  | .epdSetRamXPointer payload => Sys2Proof.Machine.execEpdSetRamXPointer payload s
  | .epdSetRamYPointer payload => Sys2Proof.Machine.execEpdSetRamYPointer payload s
  | .goledSetColumnWindow first last => Sys2Proof.Machine.execGoledSetColumnWindow first last s
  | .goledSetRowWindow first last => Sys2Proof.Machine.execGoledSetRowWindow first last s
  | .goledInitBlock bytes => Sys2Proof.Machine.execGoledInitBlock bytes s
  | .woledSetAddressingModeHorizontal => Sys2Proof.Machine.execWoledSetAddressingModeHorizontal s
  | .woledFlipVertical => Sys2Proof.Machine.execWoledFlipVertical s
  | .woledFlipHorizontal => Sys2Proof.Machine.execWoledFlipHorizontal s
  | .woledDisplayOn => Sys2Proof.Machine.execWoledDisplayOn s
  | .woledSetColumnWindow first last => Sys2Proof.Machine.execWoledSetColumnWindow first last s
  | .woledSetPageWindow first last => Sys2Proof.Machine.execWoledSetPageWindow first last s
  | .epdPixelData b => Sys2Proof.Machine.execEpdPixelData b s
  | .goledPixelData b => Sys2Proof.Machine.execGoledPixelData b s
  | .woledPixelData b => Sys2Proof.Machine.execWoledPixelData b s

end Sys2Proof.Machine
end

