-- ==== Sys2Proof/Machine/Fetch.lean ====
section
/-! DEFINITION. Where the next instruction comes from: the descriptor the host presents, or the wire command the sequencer
stands at; and how a table word is put there. -/

namespace Sys2Proof.Machine

/-- The space the sequencer's wire commands are in (30_encoding R123, R124). -/
def wireSpace (s : State) : Space :=
  match s.cfg.variant with
  | .epd => .epd
  | .goled => if s.mode = .initializing then .goledInit else .goled
  | .woled => .woled

/-- The instruction due, as code, and the state it runs in: the wire command the sequencer stands at, or the request the
block accepts; none while a transaction group is in progress or the sequencer stands at another point. -/
def fetch (s : State) : Option (Code × State) :=
  match s.bus, s.send with
  | [], some w => some (⟨wireSpace s, w⟩, s)
  | [], none => (presented s).map (fun r => (⟨.request, ⟨r.desc.toList, []⟩⟩, accept r s))
  | _ :: _, _ => none

/-- A code that is no instruction: a descriptor raises ILLEGAL_REQUEST (30_encoding R118, R119); a wire word, which only
a parameter outside its constraints can be, is refused. -/
def reject (c : Code) (s : State) : Host.Outcome State Fault Refusal :=
  match c.space with
  | .request => .next (raiseFault .illegalRequest s)
  | .epd => .refused .undefinedWireCommand
  | .goled => .refused .undefinedWireCommand
  | .goledInit => .refused .undefinedWireCommand
  | .woled => .refused .undefinedWireCommand

/-- The step where no instruction is due: one event of the transaction in progress, or the event or read at the point. -/
def advance (s : State) : Host.Outcome State Fault Refusal :=
  match s.bus with
  | _ :: _ => driveBus s
  | [] => .next (seqStep s)

/-- The 12 descriptor bytes given as a list. -/
def descOf (bs : List Byte) : Vector Byte 12 :=
  let b (i : Nat) : Byte := bs.getD i 0
  #v[b 0, b 1, b 2, b 3, b 4, b 5, b 6, b 7, b 8, b 9, b 10, b 11]

/-- A code placed where the next step fetches: a descriptor presented by the host, to a block that accepts one; a wire
command at the sequencer, on an instance of its variant (log 15). -/
def placeCode (c : Code) (s : State) : State :=
  match c.space with
  | .request =>
    { s with host := ⟨descOf c.word.cmd, s.ports⟩ :: s.host, pos := .idle, send := none, bus := [],
             mode := match s.mode with
               | .uninit => .uninit
               | .halted => .halted
               | _ => .idle }
  | .epd => { s with cfg := { s.cfg with variant := .epd }, send := some c.word, bus := [] }
  | .goled =>
    { s with cfg := { s.cfg with variant := .goled }, send := some c.word, bus := [],
             mode := if s.mode = .initializing then .writing else s.mode }
  | .goledInit =>
    { s with cfg := { s.cfg with variant := .goled }, send := some c.word, bus := [], mode := .initializing }
  | .woled => { s with cfg := { s.cfg with variant := .woled }, send := some c.word, bus := [] }

end Sys2Proof.Machine
end

