-- ==== Sys2Proof/Machine/Step.lean ====
section
/-! DEFINITION. One step of the machine. -/

namespace Sys2Proof.Machine

/-- One step: nothing in HALTED (10_state R41); the instruction due, where one is; otherwise the next event or read. -/
def step (s : State) : Host.Outcome State Fault Refusal :=
  if s.mode = .halted then .next s
  else
    match fetch s with
    | none => advance s
    | some (c, t) =>
      match decode c with
      | .ok i => exec i t
      | .error _ => reject c t

/-- `s` with the table word `w` of `nbits` bits where the next step fetches. -/
def State.withFetchWord (s : State) (nbits w : Nat) : State :=
  placeCode (tableCode nbits w) s

end Sys2Proof.Machine
end

