-- ==== Sys2Proof/Safety.lean ====
section
/-! DEFINITION. The terms the statements use: the events of a transaction group as 00_scope R11 to R14 give them, the
invariant of the machine, and when a run is safe. -/

namespace Sys2Proof.Machine

/-! ### Events as the spec lists them -/

/-- The events of `SendCmd` and `SendCmdSeq` (00_scope R11, R12). -/
def cmdEvents (bytes : List Byte) : List Event :=
  [.dc .cmd, .cs .assert] ++ bytes.map .xfer ++ [.cs .deassert]

/-- The events of `SendData` (00_scope R13). -/
def dataEvents (fr : Framing) (bytes : List Byte) : List Event :=
  match fr with
  | .perBurst =>
    if bytes = [] then [] else [.dc .data, .cs .assert] ++ bytes.map .xfer ++ [.cs .deassert]
  | .perByte => (bytes.map (fun b => [.dc .data, .cs .assert, .xfer b, .cs .deassert])).flatten

/-- The events of one wire command (30_encoding R122). -/
def wordEvents (fr : Framing) (w : WireWord) : List Event :=
  (if w.cmd = [] then [] else cmdEvents w.cmd) ++ dataEvents fr w.data

/-- The events of `WaitBusy()` that finds busy asserted `n` times (41_epaper R230; 30_encoding R133, `WB[n]`). -/
def waitEvents (pollMs n : Nat) : List Event :=
  (List.replicate n [Event.busySample true, Event.delay pollMs]).flatten ++ [.busySample false]

/-- The events of one action of EPD_INIT_SEQ whose waits find busy clear (41_epaper R201). -/
def initActionEvents (c : Config) : InitAction → List Event
  | .cmd op payload => cmdEvents [op] ++ dataEvents c.framing payload
  | .wait => waitEvents c.pollMs 0
  | .pause ms => [.delay ms]

/-- The level of the busy input that is not BUSY_ACTIVE_LEVEL (41_epaper R230). -/
def busyClearLevel (c : Config) : Level :=
  match c.busyActiveLevel with
  | .low => .high
  | .high => .low

/-- How many `Wait` actions a list of initialisation actions has. -/
def initWaits : List InitAction → Nat
  | [] => 0
  | .wait :: rest => initWaits rest + 1
  | .cmd _ _ :: rest => initWaits rest
  | .pause _ :: rest => initWaits rest

/-- The oracle answers `ok` for the next `n` collaborator operations (60_exceptions R363). -/
def quiet (n : Nat) (s : State) : Prop :=
  ∀ f, s.oracle = some f → f.index < s.ops ∨ s.ops + n ≤ f.index

/-- The state at the end of a wire command's last transaction, before the sequencer moves on: its events are in the
trace, chip-select is deasserted, DC is at the level of the last transaction, each event was one operation. -/
def afterWord (w : WireWord) (s : State) : State :=
  { s with
    send := none
    bus := []
    trace := s.trace ++ wordEvents s.cfg.framing w
    pins := { s.pins with cs := .deassert, dc := if w.data = [] then .cmd else .data }
    ops := s.ops + (wordEvents s.cfg.framing w).length }

/-! ### Requests and the checks before them -/

/-- The OP values of 30_encoding R115. -/
def definedOps : List Byte := [0x01, 0x02, 0x03, 0x04, 0x05, 0x06, 0x10, 0x11, 0x12, 0x13, 0x14]

/-- Some field that 30_encoding R112 marks "0" for the latched OP is not 0. -/
def unusedNotZero (l : Latch) : Prop :=
  (l.op ∈ [0x02, 0x03] ∧ (l.c0 ≠ 0 ∨ l.c1 ≠ 0)) ∨
  (l.op = 0x04 ∧ (l.c1 ≠ 0 ∨ l.x ≠ 0 ∨ l.y ≠ 0 ∨ l.w ≠ 0 ∨ l.h ≠ 0)) ∨
  (l.op = 0x06 ∧ l.h ≠ 0) ∨
  (l.op ∈ [0x01, 0x05, 0x10, 0x11, 0x12, 0x13, 0x14] ∧
    (l.c0 ≠ 0 ∨ l.c1 ≠ 0 ∨ l.x ≠ 0 ∨ l.y ≠ 0 ∨ l.w ≠ 0 ∨ l.h ≠ 0))

/-- The latch of an accepted request: the fields of its descriptor (30_encoding R110, R111). -/
def requestLatch (i : Instr) : Latch := latchOf (descOf (encode i).word.cmd)

/-- The state after `raise Fault(code)` from `s` has run to its end: its events are in the trace, HALT_CAUSE and MODE are
written, nothing is left to do, and everything else is as it was (60_exceptions R360, R364, R366). -/
def halted (code : FaultCode) (s : State) : State :=
  { s with
    trace := s.trace ++ haltEvents s.cfg code
    haltCause := some code
    mode := .halted
    pos := .idle
    send := none
    bus := [] }

/-- How many steps the events of a fault take: one each (20_memory R91). -/
def haltSteps (c : Config) : Nat := if c.diagEnabled then 2 else 1

/-- An outcome that has come to `raise Fault(code)` over `s`, with no event yet: the events of the fault follow, one a
step, and nothing else. -/
def Raises (o : Host.Outcome State Fault Refusal) (code : FaultCode) (s : State) : Prop :=
  o = .next (raiseFault code s) ∧ Sys2Proof.core.run (haltSteps s.cfg) (raiseFault code s) = .next (halted code s)

/-- An outcome in which the first event of `raise Fault(code)` over `s` has happened in place of another event or read: the
rest of its events follow, and nothing else. -/
def FaultsInPlace (o : Host.Outcome State Fault Refusal) (code : FaultCode) (s : State) : Prop :=
  o = .next (takeFault code s) ∧ Sys2Proof.core.run (haltSteps s.cfg - 1) (takeFault code s) = .next (halted code s)

/-- What no request changes as it is accepted, checked and begun: the trace, the panel, the pins, the packing register and
the text buffer, the parameters and the inputs. -/
structure Untouched (s t : State) : Prop where
  cfg : t.cfg = s.cfg
  fm : ∀ a, Memory.read t.fm a = Memory.read s.fm a
  vis : ∀ a, Memory.read t.vis a = Memory.read s.vis a
  pins : t.pins = s.pins
  sr : t.sr = s.sr
  tb : t.tb = s.tb
  trace : t.trace = s.trace
  inputs : t.ports = s.ports ∧ t.host = s.host ∧ t.busyIn = s.busyIn ∧ t.busyReads = s.busyReads ∧ t.changed = s.changed
  oracle : t.oracle = s.oracle ∧ t.ops = s.ops

/-! ### Packed bytes as the spec's sums -/

/-- `bit(c)` of a Color as a number (00_scope R10). -/
def bitNat (c : Color) : Nat := if c.getLsbD 0 then 1 else 0

/-- The EPD data byte whose leftmost pixel is `(x, j)` (41_epaper R215). -/
def epdByte (f : Int → Int → Color) (x j : Int) : Byte :=
  BitVec.ofNat 8 ((List.range 8).map (fun (k : Nat) => bitNat (f (x + k) j) * 2 ^ (7 - k))).sum

/-- The GOLED data byte of column pair `c` and row `r` (42_gray_oled R265). -/
def goledByte (f : Int → Int → Color) (c r : Int) : Byte :=
  BitVec.ofNat 8 ((f (2 * c) r).toNat % 16 * 16 + (f (2 * c + 1) r).toNat % 16)

/-- The WOLED data byte of column `c` and page `p` (43_wide_oled R304). -/
def woledByte (f : Int → Int → Color) (c p : Int) : Byte :=
  BitVec.ofNat 8 ((List.range 8).map (fun (o : Nat) => bitNat (f c (8 * p + o)) * 2 ^ o)).sum

/-! ### Which instruction is what -/

/-- The requests (30_encoding R115). -/
def isRequest (i : Instr) : Bool := (encode i).space == .request

/-- The variant whose wire a wire command is on (30_encoding R123). -/
def wireVariant (i : Instr) : Option Variant :=
  match (encode i).space with
  | .request => none
  | .epd => some .epd
  | .goled => some .goled
  | .goledInit => some .goled
  | .woled => some .woled

/-- The pixel-data bytes. -/
def isPixelData : Instr → Bool
  | .epdPixelData _ => true
  | .goledPixelData _ => true
  | .woledPixelData _ => true
  | _ => false

/-- The intended address of the pixel byte due in a state (41_epaper R216, 42_gray_oled R266, 43_wide_oled R305). -/
def pixelAddr (s : State) : Option Nat :=
  match s.cfg.variant with
  | .epd => fmAddr .epd (epdPixelDest s.epd)
  | .goled => fmAddr .goled (goledPixelDest s.goled)
  | .woled => fmAddr .woled (woledPixelDest s.woled)

/-! ### The invariant -/

/-- The number of frame-memory units of a panel (20_memory R89). -/
def fmUnits (v : Variant) : Nat := (fmExtent v).1 * (fmExtent v).2

/-- A memory in canonical form whose addresses are all units of the panel (20_memory R89, R90). -/
def memOk (v : Variant) (m : List Host.Cell) : Bool :=
  Memory.wf m && m.all (fun c => decide (c.1 < fmUnits v))

/-- Chip-select framing (10_state R47): from this level, the operations change DC only between transactions, transfer
only inside one, and leave chip-select deasserted. -/
def framed : CsLevel → List BusOp → Bool
  | .deassert, [] => true
  | .deassert, .dc _ :: rest => framed .deassert rest
  | .deassert, .cs .assert :: rest => framed .assert rest
  | .assert, .xfer _ _ :: rest => framed .assert rest
  | .assert, .cs .deassert :: rest => framed .deassert rest
  | _, _ => false

/-- Every pixel byte on the bus is for a unit of the panel (20_memory R90). -/
def busOnPanel (v : Variant) (ops : List BusOp) : Bool :=
  ops.all (fun op => match op with
    | .xfer _ (some d) => (fmAddr v d).isSome
    | .xfer _ none => true
    | .dc _ => true
    | .cs _ => true)

/-- The modes a variant has (10_state R36): three of them are EPD's alone. -/
def modeOfVariant : Variant → Mode → Bool
  | .epd, _ => true
  | _, .resetting => false
  | _, .waitPointer => false
  | _, .busyUpdating => false
  | _, _ => true

/-- The positions a variant has. -/
def posOfVariant : Variant → Pos → Bool
  | _, .idle | _, .raising _ | _, .halting _ | _, .respond _ | _, .readChar | _, .readGlyph => true
  | v, .resetLow | v, .resetHold | v, .resetHigh | v, .resetSettle | v, .epdInit _ | v, .pause _ _ | v, .sample _
  | v, .poll _ | v, .epdYWindow | v, .epdRows | v, .epdYPointer | v, .epdPointerSet | v, .epdGroups | v, .epdPixel
  | v, .epdNextGroup => v == .epd
  | v, .goledPre | v, .goledBlock _ | v, .goledPost | v, .goledRowWindow | v, .goledRows | v, .goledLeft
  | v, .goledRight | v, .goledNextPair => v == .goled
  | v, .woledDelay1 | v, .woledDelay2 | v, .woledInit _ | v, .woledPageWindow | v, .woledPages | v, .woledPixel
  | v, .woledNextColumn => v == .woled

/-- The MODE a position is in (10_state R36 to R38). -/
def modeAtWait : WaitSite → Mode
  | .init _ => .initializing
  | .pointer => .waitPointer
  | .commit => .busyUpdating

/-- A MODE fits a position (10_state R36 to R38). -/
def modeAt : Pos → Mode → Bool
  | .idle, m => m == .uninit || m == .idle || m == .halted
  | .raising _, m | .halting _, m => m != .halted
  | .respond _, m => m == .idle
  | .resetLow, m | .resetHold, m | .resetHigh, m | .resetSettle, m => m == .resetting
  | .epdInit _, m | .pause _ _, m | .goledPre, m | .goledBlock _, m | .goledPost, m | .woledDelay1, m
  | .woledDelay2, m | .woledInit _, m => m == .initializing
  | .sample site, m | .poll site, m => m == modeAtWait site
  | .epdYWindow, m | .epdRows, m | .epdYPointer, m | .epdPointerSet, m | .epdGroups, m | .epdPixel, m
  | .epdNextGroup, m | .goledRowWindow, m | .goledRows, m | .goledLeft, m | .goledRight, m | .goledNextPair, m
  | .woledPageWindow, m | .woledPages, m | .woledPixel, m | .woledNextColumn, m | .readChar, m | .readGlyph, m =>
    m == .writing

/-- What is left of an initialisation is admitted by 41_epaper R205, or is of the instance's GOLED_INIT_BLOCK
(42_gray_oled R250, R251), or is left of 43_wide_oled R292. -/
def initRestOk (c : Config) : Pos → Bool
  | .epdInit rest | .pause _ rest | .sample (.init rest) | .poll (.init rest) => rest.all initActionOk
  | .goledBlock rest => rest.all (fun k => c.goledInitBlock.contains k)
  | .woledInit rest => rest.all (fun k => woledInitCommands.contains k)
  | _ => true

/-- The EPD window registers after clipping (41_epaper R211, R212, R216). -/
def epdWindowOk (e : EpdWork) : Prop :=
  0 ≤ e.xa ∧ e.xa % 8 = 0 ∧ (e.xe - e.xa + 1) % 8 = 0 ∧ e.xe ≤ 199 ∧ e.ye ≤ 199

/-- The GOLED window registers after clipping (42_gray_oled R262, R266). -/
def goledWindowOk (g : GoledWork) : Prop := 0 ≤ g.xc ∧ g.ce ≤ 63 ∧ g.re ≤ 127

/-- The WOLED window registers after clipping (43_wide_oled R301, R305). -/
def woledWindowOk (o : WoledWork) : Prop := 0 ≤ o.pg ∧ o.xe ≤ 127 ∧ o.pe ≤ 7

/-- The working registers at a position lie where the unit algorithms put them: every query and every pixel byte is on
the panel (20_memory R90). -/
def registersAt (s : State) : Pos → Prop
  | .epdYWindow | .epdRows => epdWindowOk s.epd
  | .epdYPointer | .epdPointerSet | .sample .pointer | .poll .pointer | .epdGroups =>
    epdWindowOk s.epd ∧ 0 ≤ s.epd.j ∧ s.epd.j ≤ s.epd.ye
  | .epdPixel | .epdNextGroup =>
    epdWindowOk s.epd ∧ 0 ≤ s.epd.j ∧ s.epd.j ≤ s.epd.ye ∧ 0 ≤ s.epd.g ∧ s.epd.g < epdGroupCount s.epd ∧ s.epd.k ≤ 7
  | .goledRowWindow | .goledRows => goledWindowOk s.goled
  | .goledLeft | .goledRight | .goledNextPair =>
    goledWindowOk s.goled ∧ 0 ≤ s.goled.r ∧ s.goled.r ≤ s.goled.re ∧ s.goled.xc ≤ s.goled.c ∧ s.goled.c ≤ s.goled.ce
  | .woledPageWindow | .woledPages => woledWindowOk s.woled
  | .woledPixel | .woledNextColumn =>
    woledWindowOk s.woled ∧ 0 ≤ s.woled.p ∧ s.woled.p ≤ s.woled.pe ∧ 0 ≤ s.woled.c ∧ s.woled.c ≤ s.woled.xe
      ∧ s.woled.off ≤ 7
  | _ => True

/-- A position inside the events of a fault: Diag is out and Halt is next. Pins keep their levels there
(60_exceptions R364). -/
def isHalting : Pos → Bool
  | .halting _ => true
  | _ => false

/-- A position that is a move, made at the end of the event before it: a wire command is due or in progress there. -/
def isMove : Pos → Bool
  | .epdInit _ | .epdYWindow | .epdRows | .epdYPointer | .epdPointerSet | .epdGroups | .epdNextGroup | .goledBlock _
  | .goledRowWindow | .goledRows | .goledNextPair | .woledInit _ | .woledPageWindow | .woledPages | .woledNextColumn => true
  | _ => false

/-- A position at which the next step completes one read (00_scope R17): a query, a string byte, a glyph bit. -/
def isRead : Pos → Bool
  | .epdPixel | .goledLeft | .goledRight | .woledPixel | .readChar | .readGlyph => true
  | _ => false

/-- A position at which the wire command just due is a pixel byte. -/
def isAfterPixelByte : Pos → Bool
  | .epdNextGroup | .goledNextPair | .woledNextColumn => true
  | _ => false

/-- An opaque GOLED initialisation command is one of the instance's GOLED_INIT_BLOCK (30_encoding R129). -/
def initCommandOk (c : Config) : Instr → Bool
  | .goledInitBlock bytes => c.goledInitBlock.contains bytes
  | _ => true

/-- The wire command the sequencer stands at is one of its variant (30_encoding R126, R129), a pixel byte only where the
algorithm sends one, and an initialisation command only of the GOLED_INIT_BLOCK. -/
def sendOk (s : State) (w : WireWord) : Bool :=
  match decode ⟨wireSpace s, w⟩ with
  | .ok i => (!isPixelData i || isAfterPixelByte s.pos) && initCommandOk s.cfg i
  | .error _ => false

/-- The invariant of the machine. -/
structure Inv (s : State) : Prop where
  /-- The parameters are admitted ones (00_scope R7). -/
  config : s.cfg.wf = true
  /-- Frame memory and visible image are in canonical form, within the panel. -/
  fm : memOk s.cfg.variant s.fm = true
  vis : memOk s.cfg.variant s.vis = true
  /-- HALT_CAUSE holds a code exactly in HALTED (10_state R43). -/
  cause : s.mode = .halted ↔ s.haltCause.isSome = true
  /-- Chip-select is deasserted between transactions (10_state R47); a fault keeps its level (60_exceptions R364). -/
  framing : s.mode ≠ .halted → isHalting s.pos = false → framed s.pins.cs s.bus = true
  bus : busOnPanel s.cfg.variant s.bus = true
  /-- MODE and position fit the variant and each other. -/
  mode : modeOfVariant s.cfg.variant s.mode = true
  pos : posOfVariant s.cfg.variant s.pos = true
  modePos : modeAt s.pos s.mode = true
  initRest : initRestOk s.cfg s.pos = true
  cursor : 0 ≤ s.text.cx
  registers : registersAt s s.pos
  /-- A wire command is due only when the bus is free, and it is a command of the variant. -/
  sendFree : s.send ≠ none → s.bus = []
  send : ∀ w, s.send = some w → sendOk s w = true
  /-- At a move a wire command is due or in progress. -/
  due : isMove s.pos = true → s.send ≠ none ∨ s.bus ≠ []
  /-- Between the two events of a fault nothing of the request is left (60_exceptions R364). -/
  ended : isHalting s.pos = true → s.send = none ∧ s.bus = []

/-- The moves of MODE that 10_state R37, R38 and R39 allow, staying included. -/
def modeMove (v : Variant) (a b : Mode) : Bool :=
  a == b || (b == .halted) ||
  match v, a, b with
  | .epd, .uninit, .resetting => true
  | .epd, .resetting, .initializing => true
  | .epd, .writing, .waitPointer => true
  | .epd, .waitPointer, .writing => true
  | .epd, .idle, .busyUpdating => true
  | .epd, .busyUpdating, .idle => true
  | .goled, .uninit, .initializing => true
  | .woled, .uninit, .initializing => true
  | _, .initializing, .idle => true
  | _, .idle, .writing => true
  | _, .writing, .idle => true
  | _, _, _ => false

/-- A safe step: it answers a next state. A fault taken by the block is a next state in HALTED. -/
def Proceeds (s : State) : Prop := ∃ t, step s = .next t

end Sys2Proof.Machine
end

