-- ==== Sys2Proof/Certificates/Slice0/Obligations.lean ====
section
/-! DEFINITION. The statements for the provers. -/

open Sys2Proof Sys2Proof.Machine

/-! ### Decoding and stepping -/

/-- A step runs the instruction due: a wire command at which the sequencer stands, decoded in the space of its variant, or
the request the block accepts, once its descriptor and bindings are taken. Around `exec` the step adds nothing else
(10_state R35; 20_memory R91; 30_encoding R110). -/
def Obligations.StepRunsTheDecodedInstruction : Prop :=
  (∀ (s : State) (w : WireWord) (i : Instr), s.mode ≠ .halted → s.bus = [] → s.send = some w →
    decode ⟨wireSpace s, w⟩ = .ok i → step s = exec i s) ∧
  (∀ (s : State) (r : HostRequest) (rest : List HostRequest) (i : Instr), (s.mode = .uninit ∨ s.mode = .idle) →
    s.pos = .idle → s.bus = [] → s.send = none → s.host = r :: rest → decode ⟨.request, ⟨r.desc.toList, []⟩⟩ = .ok i →
    step s = exec i { s with latch := latchOf r.desc, ports := r.ports, host := rest })

/-- Words written out from 30_encoding R112, R125, R127 and R128 decode to the instructions they stand for; the byte
0x20, 0x21 or 0x22 names a different command on EPD and on WOLED (R123). -/
def Obligations.WordsDecode : Prop :=
  decode ⟨.request, ⟨[0x02, 0, 0, 0, 0x08, 0, 0x01, 0, 0x10, 0, 0x02, 0x01], []⟩⟩ = .ok (.setFrameCallback 8 1 16 258) ∧
  decode ⟨.request, ⟨[0x06, 0x0F, 0x01, 0, 0, 0x01, 0, 0, 0x03, 0, 0, 0], []⟩⟩ = .ok (.drawText 0x0F 0x01 256 0 3) ∧
  decode ⟨.epd, ⟨[0x45], [0x01, 0x00, 0x02, 0x00]⟩⟩ = .ok (.epdSetRamYWindow [0x01, 0x00, 0x02, 0x00]) ∧
  decode ⟨.epd, ⟨[0x20], []⟩⟩ = .ok (.epdActivateUpdate []) ∧
  decode ⟨.woled, ⟨[0x20, 0x00], []⟩⟩ = .ok .woledSetAddressingModeHorizontal ∧
  decode ⟨.epd, ⟨[0x21], [0x40]⟩⟩ = .ok (.epdDisplayUpdateControl [0x40]) ∧
  decode ⟨.woled, ⟨[0x21, 0x0A, 0x0C], []⟩⟩ = .ok (.woledSetColumnWindow 0x0A 0x0C) ∧
  decode ⟨.epd, ⟨[0x22], [0xF7]⟩⟩ = .ok (.epdUpdateSequenceSelect [0xF7]) ∧
  decode ⟨.woled, ⟨[0x22, 0x01, 0x02], []⟩⟩ = .ok (.woledSetPageWindow 0x01 0x02) ∧
  decode ⟨.goled, ⟨[0x75, 0x03, 0x04], []⟩⟩ = .ok (.goledSetRowWindow 0x03 0x04)

/-- DECODE AND ENCODE AGREE, every instruction with every operand at every value (30_encoding R111 to R128). -/
def Obligations.DecodeInvertsEncode : Prop :=
  ∀ i : Instr, i.wf = true → decode (encode i) = .ok i

/-- The other direction: a code decodes to at most the instruction whose encoding it is, so no two encodings overlap and
no reserved or unused bit is dropped (30_encoding R116, R118, R126, R129). -/
def Obligations.EncodeInvertsDecode : Prop :=
  ∀ (c : Code) (i : Instr), decode c = .ok i → encode i = c ∧ i.wf = true

/-- Every opcode not listed raises ILLEGAL_REQUEST, in both modes that accept a request, with no other event (R117). -/
def Obligations.UndefinedOpcodeIsIllegal : Prop :=
  ∀ (s : State) (r : HostRequest) (rest : List HostRequest), (s.mode = .uninit ∨ s.mode = .idle) → s.pos = .idle →
    s.bus = [] → s.send = none → s.host = r :: rest → r.desc[0] ∉ definedOps →
    Raises (step s) .illegalRequest { s with latch := latchOf r.desc, ports := r.ports, host := rest }

/-- A nonzero RSV byte, or a nonzero field marked "0", raises ILLEGAL_REQUEST with no other event (R116). -/
def Obligations.NonzeroReservedFieldIsIllegal : Prop :=
  ∀ (s : State) (r : HostRequest) (rest : List HostRequest), (s.mode = .uninit ∨ s.mode = .idle) → s.pos = .idle →
    s.bus = [] → s.send = none → s.host = r :: rest → (r.desc[3] ≠ 0 ∨ unusedNotZero (latchOf r.desc)) →
    Raises (step s) .illegalRequest { s with latch := latchOf r.desc, ports := r.ports, host := rest }

/-- Acceptance (30_encoding R110, R111, R120; 40 R163): whatever the descriptor, it is copied into the latch with its
bindings in one step with no event, each field from its own bytes, low byte first; requests are taken in the host's order,
only in UNINIT or IDLE with no request in progress, and wait otherwise. -/
def Obligations.Acceptance : Prop :=
  (∀ (s : State) (r : HostRequest) (rest : List HostRequest), (s.mode = .uninit ∨ s.mode = .idle) → s.pos = .idle →
    s.bus = [] → s.send = none → s.host = r :: rest →
    ∃ t, step s = .next t ∧ t.trace = s.trace ∧ t.host = rest ∧ t.ports = r.ports ∧
      t.latch.op = r.desc[0] ∧ t.latch.c0 = r.desc[1] ∧ t.latch.c1 = r.desc[2] ∧ t.latch.rsv = r.desc[3] ∧
      t.latch.x.toNat = r.desc[4].toNat + 256 * r.desc[5].toNat ∧
      t.latch.y.toNat = r.desc[6].toNat + 256 * r.desc[7].toNat ∧
      t.latch.w.toNat = r.desc[8].toNat + 256 * r.desc[9].toNat ∧
      t.latch.h.toNat = r.desc[10].toNat + 256 * r.desc[11].toNat) ∧
  ∀ s t : State, step s = .next t →
    t.host = s.host ∨
    ((s.mode = .uninit ∨ s.mode = .idle) ∧ s.pos = .idle ∧ ∃ r, s.host = r :: t.host ∧ t.ports = r.ports ∧
      t.trace = s.trace)

/-! ### Faults -/

/-- HALTED is terminal: no step and no instruction does anything there (10_state R41); HALT_CAUSE is written only by the
step that halts, and never again (R43). -/
def Obligations.HaltedIsTerminal : Prop :=
  (∀ s : State, s.mode = .halted → step s = .next s ∧ ∀ i : Instr, exec i s = .next s) ∧
  ∀ s t : State, step s = .next t → t.haltCause ≠ s.haltCause →
    s.mode ≠ .halted ∧ t.mode = .halted ∧ ∃ code, t.haltCause = some code

/-- Every fault is precise (60 R364, R366): from the point where it is raised its events follow and nothing else; the step
that halts adds exactly the Halt event and keeps the pins and the panel's memory, and nothing follows; where DIAG_ENABLED
exactly one Diag comes immediately before Halt, and otherwise none. -/
def Obligations.EveryHaltIsPrecise : Prop :=
  (∀ (s : State) (code : FaultCode), s.mode ≠ .halted → Raises (.next (raiseFault code s)) code s) ∧
  (∀ s t : State, s.mode ≠ .halted → step s = .next t → t.mode = .halted →
    ∃ code, t.haltCause = some code ∧ t.trace = s.trace ++ [.halt code] ∧
      (s.cfg.diagEnabled = true → s.pos = .halting code) ∧
      t.pins = s.pins ∧ (∀ a, Memory.read t.fm a = Memory.read s.fm a) ∧
      (∀ a, Memory.read t.vis a = Memory.read s.vis a) ∧ ∀ k, Sys2Proof.core.run k t = .next t) ∧
  (∀ (s t : State) (code : FaultCode), step s = .next t → t.pos = .halting code → s.pos ≠ .halting code →
    s.cfg.diagEnabled = true ∧ t.trace = s.trace ++ [.diag] ∧ t.pins = s.pins ∧
      (∀ a, Memory.read t.fm a = Memory.read s.fm a) ∧ ∀ a, Memory.read t.vis a = Memory.read s.vis a) ∧
  ∀ s t : State, step s = .next t → t.trace = s.trace ++ [.diag] → ∃ code, t.pos = .halting code

/-- One block step emits exactly one event or completes one read (20_memory R91; 10_state R35): the trace grows by at most
one event in any step; and in the states of the invariant a step with no event is one read, or the acceptance of a request
(30_encoding R110), or the block stays as it is, waiting for the host or halted. -/
def Obligations.StepEmitsAtMostOneEvent : Prop :=
  ∀ s t : State, step s = .next t →
    (t.trace = s.trace ∨ ∃ e, t.trace = s.trace ++ [e]) ∧
    (Inv s → t.trace = s.trace →
      (isRead s.pos = true ∧ s.bus = [] ∧ s.send = none) ∨
      ((s.mode = .uninit ∨ s.mode = .idle) ∧ s.pos = .idle ∧ ∃ r, s.host = r :: t.host) ∨
      (t = s ∧ (s.pos = .idle ∨ s.mode = .halted)))

/-- A failing collaborator operation: its event does not enter the trace and its fault is raised in its place. A Delay and a
Respond never fail, wherever the sequencer does one (60 R363). The wire-command clause is one about to start: its first
operation is a pin operation. -/
def Obligations.FailingOperationHalts : Prop :=
  ∀ (s : State) (u : Bool), s.mode ≠ .halted → oracleFails s = some u →
    (∀ l rest, s.bus = .dc l :: rest → FaultsInPlace (step s) (pinFault u) s) ∧
    (∀ l rest, s.bus = .cs l :: rest → FaultsInPlace (step s) (pinFault u) s) ∧
    (∀ b d rest, s.bus = .xfer b d :: rest → FaultsInPlace (step s) .busFailure s) ∧
    (s.bus = [] → s.send = none → (s.pos = .resetLow ∨ s.pos = .resetHigh ∨ ∃ site, s.pos = .sample site) →
      FaultsInPlace (step s) (pinFault u) s) ∧
    (s.bus = [] → s.send = none →
      (s.pos = .resetHold ∨ s.pos = .resetSettle ∨ (∃ ms rest, s.pos = .pause ms rest) ∨ (∃ site, s.pos = .poll site) ∨
        s.pos = .goledPre ∨ s.pos = .goledPost ∨ s.pos = .woledDelay1 ∨ s.pos = .woledDelay2) →
      ∃ t ms, step s = .next t ∧ t.mode ≠ .halted ∧ (∀ code, t.pos ≠ .raising code ∧ t.pos ≠ .halting code) ∧
        t.trace = s.trace ++ [.delay ms]) ∧
    (∀ v, s.bus = [] → s.send = none → s.pos = .respond v →
      ∃ t, step s = .next t ∧ t.mode = .idle ∧ t.pos = .idle ∧ t.trace = s.trace ++ [.respond v]) ∧
    (∀ i : Instr, s.bus = [] → wireVariant i = some s.cfg.variant → i.wf = true →
      FaultsInPlace (exec i s) (pinFault u) s)

/-! ### The checks of a request -/

/-- Legality by mode (40 R162): only INIT in UNINIT, everything but INIT in IDLE; the latch is written, nothing else. -/
def Obligations.IllegalStateByMode : Prop :=
  ∀ (s : State) (i : Instr), isRequest i = true →
    (s.mode = .uninit → i ≠ .init → Raises (exec i s) .illegalState { s with latch := requestLatch i }) ∧
    (s.mode = .idle → i = .init → Raises (exec i s) .illegalState { s with latch := requestLatch i }) ∧
    (((s.mode = .uninit ∧ i = .init) ∨ (s.mode = .idle ∧ i ≠ .init)) →
      ∃ t, exec i s = .next t ∧ t.pos ≠ .raising .illegalState)

/-- Argument limits (30_encoding R113): a sum beyond 65535 raises ILLEGAL_ARGUMENT before any event. -/
def Obligations.ArgumentLimits : Prop :=
  ∀ (s : State) (x y w h n : Half) (fg bg : Byte), s.mode = .idle →
    ((65535 < x.toNat + w.toNat ∨ 65535 < y.toNat + h.toNat) →
      Raises (exec (.setFrameCallback x y w h) s) .illegalArgument { s with latch := ⟨0x02, 0, 0, 0, x, y, w, h⟩ } ∧
      Raises (exec (.setFrameBuffer x y w h) s) .illegalArgument { s with latch := ⟨0x03, 0, 0, 0, x, y, w, h⟩ }) ∧
    ((65535 < x.toNat + 8 * n.toNat ∨ 65535 < y.toNat + 8) →
      Raises (exec (.drawText fg bg x y n) s) .illegalArgument { s with latch := ⟨0x06, fg, bg, 0, x, y, n, 0⟩ })

/-- Color fields (30_encoding R114): on EPD and WOLED a color field above 1 raises ILLEGAL_ARGUMENT before any event, and 0
and 1 are legal; on GOLED every value is legal. -/
def Obligations.ColorFields : Prop :=
  ∀ (s : State) (c fg bg : Byte) (x y n : Half), s.mode = .idle →
    (s.cfg.variant ≠ .goled →
      (1 < c.toNat →
        Raises (exec (.clearFrame c) s) .illegalArgument { s with latch := ⟨0x04, c, 0, 0, 0, 0, 0, 0⟩ }) ∧
      (1 < fg.toNat ∨ 1 < bg.toNat →
        Raises (exec (.drawText fg bg x y n) s) .illegalArgument { s with latch := ⟨0x06, fg, bg, 0, x, y, n, 0⟩ }) ∧
      (c.toNat ≤ 1 → ∃ t, exec (.clearFrame c) s = .next t ∧ t.mode = .writing) ∧
      (fg.toNat ≤ 1 → bg.toNat ≤ 1 → x.toNat + 8 * n.toNat ≤ 65535 → y.toNat + 8 ≤ 65535 →
        ∃ t, exec (.drawText fg bg x y n) s = .next t ∧ ∀ code, t.pos ≠ .raising code)) ∧
    (s.cfg.variant = .goled →
      (∃ t, exec (.clearFrame c) s = .next t ∧ t.mode = .writing) ∧
      (x.toNat + 8 * n.toNat ≤ 65535 → y.toNat + 8 ≤ 65535 →
        ∃ t, exec (.drawText fg bg x y n) s = .next t ∧ ∀ code, t.pos ≠ .raising code))

/-- Degenerate windows (20_memory R83; 30_encoding R119 (4)): under FAULT they raise DEGENERATE before the first event, of a
SET_FRAME_CALLBACK, of a SET_FRAME_BUFFER and of each character cell of DRAW_TEXT (44 R333); on GOLED only y = 128 passes
the guard and is degenerate. Otherwise, and under EMPTY always, the write goes on. -/
def Obligations.DegenerateWindows : Prop :=
  (∀ (s : State) (x y w h : Half), s.mode = .idle → x.toNat + w.toNat ≤ 65535 → y.toNat + h.toNat ≤ 65535 →
    let latched (op : Byte) (src : PixSource) : State := { s with latch := ⟨op, 0, 0, 0, x, y, w, h⟩, src := src }
    let degenerate : Prop :=
      match s.cfg.variant with
      | .epd => w.toNat < 8 ∨ h.toNat = 0 ∨ 200 ≤ x.toNat ∨ 200 ≤ y.toNat
      | .goled => x.toNat < 128 ∧ y.toNat = 128 ∧ 2 ≤ w.toNat ∧ h.toNat ≠ 0
      | .woled => w.toNat = 0 ∨ h.toNat < 8 ∨ 128 ≤ x.toNat ∨ 64 ≤ y.toNat
    (s.cfg.degenerateExtent = .fault → degenerate →
      Raises (exec (.setFrameCallback x y w h) s) .degenerate (latched 0x02 .callback) ∧
      Raises (exec (.setFrameBuffer x y w h) s) .degenerate (latched 0x03 .buffer)) ∧
    (s.cfg.degenerateExtent = .empty ∨ ¬ degenerate →
      (∃ t, exec (.setFrameCallback x y w h) s = .next t ∧ ∀ code, t.pos ≠ .raising code) ∧
      ∃ t, exec (.setFrameBuffer x y w h) s = .next t ∧ ∀ code, t.pos ≠ .raising code)) ∧
  ∀ s : State, s.mode = .writing → s.src = .text → 0 ≤ s.text.cx →
    let degenerate : Prop :=
      match s.cfg.variant with
      | .epd => 200 ≤ s.text.cx ∨ 200 ≤ s.latch.y.toNat
      | .goled => s.text.cx < 128 ∧ s.latch.y.toNat = 128
      | .woled => 128 ≤ s.text.cx ∨ 64 ≤ s.latch.y.toNat
    (s.cfg.degenerateExtent = .fault → degenerate → Raises (.next (startWrite s)) .degenerate s) ∧
    (s.cfg.degenerateExtent = .empty ∨ ¬ degenerate → ∀ code, (startWrite s).pos ≠ .raising code)

/-! ### Reset and configuration -/

/-- The state after power-on, for every configuration (70 R401), and that it meets the invariant where the configuration is
an admitted one; the model's reset is that state for an admitted configuration (log 3, log 4). -/
def Obligations.PowerOn : Prop :=
  (∀ c : Config, (State.powerOn c).mode = .uninit ∧ (State.powerOn c).haltCause = none ∧
    (State.powerOn c).pins.cs = .deassert ∧ (State.powerOn c).trace = [] ∧ (State.powerOn c).cfg = c ∧
    (c.wf = true → Inv (State.powerOn c))) ∧
  State.reset = State.powerOn Config.standard ∧ Inv State.reset

/-- The configuration registers (10_state R45, R46; 40 R171 to R175): each accessor answers its register as 16 bits in one
Respond event, with no wire event, and changes nothing but the latch; no step changes the parameters they come from, so
they keep their values in every mode. -/
def Obligations.ConfigurationRegisters : Prop :=
  (∀ s t : State, step s = .next t → t.cfg = s.cfg) ∧
  ∀ s : State, s.mode = .idle →
    let answers (i : Instr) (op : Byte) (v : Half) : Prop :=
      exec i s = .next { s with latch := ⟨op, 0, 0, 0, 0, 0, 0, 0⟩, pos := .respond v } ∧
      (s.bus = [] → s.send = none →
        Sys2Proof.core.run 1 { s with latch := ⟨op, 0, 0, 0, 0, 0, 0, 0⟩, pos := .respond v } =
          .next { s with latch := ⟨op, 0, 0, 0, 0, 0, 0, 0⟩, pos := .idle, trace := s.trace ++ [.respond v] })
    (s.cfg.variant = .epd →
      answers .rdWidth 0x10 200 ∧ answers .rdHeight 0x11 200 ∧ answers .rdPpb 0x12 8 ∧ answers .rdLight 0x13 0 ∧
      answers .rdDark 0x14 1) ∧
    (s.cfg.variant = .goled →
      answers .rdWidth 0x10 128 ∧ answers .rdHeight 0x11 128 ∧ answers .rdPpb 0x12 2 ∧
      answers .rdLight 0x13 (s.cfg.goledLight.setWidth 16) ∧ answers .rdDark 0x14 (s.cfg.goledDark.setWidth 16)) ∧
    (s.cfg.variant = .woled →
      answers .rdWidth 0x10 128 ∧ answers .rdHeight 0x11 64 ∧ answers .rdPpb 0x12 8 ∧ answers .rdLight 0x13 1 ∧
      answers .rdDark 0x14 0)

/-- What no request changes as it is accepted, checked and begun, whatever it does (40 R161; 60 R364): the trace, the panel, the pins, SR,
TB, the parameters, the inputs, and the working registers of every unit but the instance's own and, for DRAW_TEXT, the
text unit's. -/
def Obligations.RequestFrame : Prop :=
  ∀ (s t : State) (i : Instr), isRequest i = true → exec i s = .next t →
    Untouched s t ∧ (s.cfg.variant ≠ .epd → t.epd = s.epd) ∧ (s.cfg.variant ≠ .goled → t.goled = s.goled) ∧
    (s.cfg.variant ≠ .woled → t.woled = s.woled) ∧ ((∀ fg bg x y n, i ≠ .drawText fg bg x y n) → t.text = s.text)

/-! ### INIT -/

/-- INIT begins the unit's initialisation (40 R164; 10_state R37, R38). -/
def Obligations.InitBegins : Prop :=
  ∀ s : State, s.mode = .uninit →
    (s.cfg.variant = .epd → exec .init s =
      .next { s with latch := ⟨0x01, 0, 0, 0, 0, 0, 0, 0⟩, mode := .resetting, pos := .resetLow }) ∧
    (s.cfg.variant = .goled → exec .init s =
      .next { s with latch := ⟨0x01, 0, 0, 0, 0, 0, 0, 0⟩, mode := .initializing, pos := .goledPre }) ∧
    (s.cfg.variant = .woled → exec .init s =
      .next { s with latch := ⟨0x01, 0, 0, 0, 0, 0, 0, 0⟩, mode := .initializing, pos := .woledDelay1 })

/-- INIT on WOLED: two delays and four commands in DOC's order, then IDLE (43 R290, R292). -/
def Obligations.InitOnWoled : Prop :=
  ∀ s : State, s.mode = .uninit → s.cfg.variant = .woled → s.bus = [] → s.send = none → quiet 17 s →
    ∃ t u, exec .init s = .next t ∧ Sys2Proof.core.run 19 t = .next u ∧ u.mode = .idle ∧ u.pos = .idle ∧
      u.trace = s.trace ++ [.delay s.cfg.woledD1, .delay s.cfg.woledD2] ++ cmdEvents [0x20, 0x00] ++ cmdEvents [0xA1]
        ++ cmdEvents [0xC8] ++ cmdEvents [0xAF] ∧
      u.pins = { s.pins with cs := .deassert, dc := .cmd } ∧ ∀ a, Memory.read u.fm a = Memory.read s.fm a

/-- INIT on GOLED, for every non-empty GOLED_INIT_BLOCK of non-empty commands (so for every admitted one, whatever "about
30 bytes" admits): the delay, each command in one command-level transaction, the delay, then IDLE (42 R250, R251). -/
def Obligations.InitOnGoled : Prop :=
  ∀ s : State, s.mode = .uninit → s.cfg.variant = .goled → s.cfg.goledInitBlock ≠ [] →
    (∀ k ∈ s.cfg.goledInitBlock, k ≠ []) → s.bus = [] → s.send = none → s.oracle = none →
    ∃ n t u, exec .init s = .next t ∧ Sys2Proof.core.run n t = .next u ∧ u.mode = .idle ∧ u.pos = .idle ∧
      u.trace = s.trace ++ [.delay s.cfg.goledDPre] ++ (s.cfg.goledInitBlock.map cmdEvents).flatten
        ++ [.delay s.cfg.goledDPost] ∧
      u.pins = { s.pins with cs := .deassert, dc := .cmd } ∧ ∀ a, Memory.read u.fm a = Memory.read s.fm a

/-- INIT on EPD, for every admitted EPD_INIT_SEQ whose waits find busy clear: the reset pulse, each action in order, then
IDLE (41 R201, R202, R205). That no unit of frame memory changes, with any payload after a 0x24, is the model's choice
(log 16, DEDUCED from 70 R402 and 20_memory R95). -/
def Obligations.InitOnEpd : Prop :=
  ∀ (s : State) (rest : List Level), s.mode = .uninit → s.cfg.variant = .epd → s.cfg.wf = true → s.bus = [] →
    s.send = none → s.oracle = none →
    s.busyIn = List.replicate (initWaits s.cfg.epdInitSeq) (busyClearLevel s.cfg) ++ rest →
    ∃ n t u, exec .init s = .next t ∧ Sys2Proof.core.run n t = .next u ∧ u.mode = .idle ∧ u.pos = .idle ∧
      u.trace = s.trace ++ [.setRst .low, .delay s.cfg.resetLowMs, .setRst .high, .delay s.cfg.resetSettleMs]
        ++ (s.cfg.epdInitSeq.map (initActionEvents s.cfg)).flatten ∧
      u.busyIn = rest ∧ u.pins.cs = .deassert ∧ u.pins.rst = .high ∧ ∀ a, Memory.read u.fm a = Memory.read s.fm a

/-! ### Wire commands -/

/-- Every EPD command completes: on an EPD instance between transactions its first event, DC at command level, happens,
and chip-select, the opcode and the payload's data burst follow on the bus (30_encoding R122; 41 R218 to R229). -/
def Obligations.EpdCommandsStart : Prop :=
  ∀ (s : State) (p : List Byte), s.mode ≠ .halted → s.cfg.variant = .epd → s.bus = [] → quiet 1 s →
    let starts (op : Byte) (payload : List Byte) : Host.Outcome State Fault Refusal :=
      .next { s with
        send := none
        bus := [.cs .assert, .xfer op none, .cs .deassert] ++ sendDataOps s.cfg.framing payload
        pins := { s.pins with dc := .cmd }
        trace := s.trace ++ [.dc .cmd]
        ops := s.ops + 1 }
    exec (.epdDriverOutputControl p) s = starts 0x01 p ∧ exec (.epdDataEntryMode p) s = starts 0x11 p ∧
    exec (.epdSetRamXWindow p) s = starts 0x44 p ∧ exec (.epdSetRamYWindow p) s = starts 0x45 p ∧
    exec (.epdBorder p) s = starts 0x3C p ∧ exec (.epdDisplayUpdateControl p) s = starts 0x21 p ∧
    exec (.epdTemperatureSensor p) s = starts 0x18 p ∧ exec (.epdUpdateSequenceSelect p) s = starts 0x22 p ∧
    exec (.epdActivateUpdate p) s = starts 0x20 p ∧ exec (.epdWriteRam p) s = starts 0x24 p ∧
    exec (.epdSetRamXPointer p) s = starts 0x4E p ∧ exec (.epdSetRamYPointer p) s = starts 0x4F p

/-- Every GOLED and WOLED command completes: all its bytes are in one command-level transaction (30_encoding R122, R127,
R128). -/
def Obligations.OledCommandsStart : Prop :=
  ∀ (s : State) (a b : Byte) (bytes : List Byte), s.mode ≠ .halted → s.bus = [] → quiet 1 s → bytes ≠ [] →
    let starts (bs : List Byte) : Host.Outcome State Fault Refusal :=
      .next { s with
        send := none
        bus := [.cs .assert] ++ bs.map (fun x => .xfer x none) ++ [.cs .deassert]
        pins := { s.pins with dc := .cmd }
        trace := s.trace ++ [.dc .cmd]
        ops := s.ops + 1 }
    (s.cfg.variant = .goled →
      exec (.goledSetColumnWindow a b) s = starts [0x15, a, b] ∧ exec (.goledSetRowWindow a b) s = starts [0x75, a, b] ∧
      exec (.goledInitBlock bytes) s = starts bytes) ∧
    (s.cfg.variant = .woled →
      exec .woledSetAddressingModeHorizontal s = starts [0x20, 0x00] ∧ exec .woledFlipVertical s = starts [0xA1] ∧
      exec .woledFlipHorizontal s = starts [0xC8] ∧ exec .woledDisplayOn s = starts [0xAF] ∧
      exec (.woledSetColumnWindow a b) s = starts [0x21, a, b] ∧ exec (.woledSetPageWindow a b) s = starts [0x22, a, b])

/-- Every pixel byte completes: one data-level transaction, carrying the byte for its intended address (41 R216, 42 R266,
43 R305). -/
def Obligations.PixelBytesStart : Prop :=
  ∀ (s : State) (b : Byte), s.mode ≠ .halted → s.bus = [] → quiet 1 s →
    let starts (d : Int × Int) : Host.Outcome State Fault Refusal :=
      .next { s with
        send := none
        bus := [.cs .assert, .xfer b (some d), .cs .deassert]
        pins := { s.pins with dc := .data }
        trace := s.trace ++ [.dc .data]
        ops := s.ops + 1 }
    (s.cfg.variant = .epd → exec (.epdPixelData b) s = starts (s.epd.xa / 8 + s.epd.g, s.epd.j)) ∧
    (s.cfg.variant = .goled → exec (.goledPixelData b) s = starts (s.goled.c, s.goled.r)) ∧
    (s.cfg.variant = .woled → exec (.woledPixelData b) s = starts (s.woled.c, s.woled.p))

/-- A wire command from its first event to its last: exactly the events of 00_scope R11 to R13 for its bytes, and then
the sequencer moves on. -/
def Obligations.WireCommandSendsItsBytes : Prop :=
  ∀ (s : State) (i : Instr), wireVariant i = some s.cfg.variant → isPixelData i = false → i.wf = true →
    s.mode ≠ .halted → s.bus = [] → quiet (wordEvents s.cfg.framing (encode i).word).length s →
    ∃ t, exec i s = .next t ∧
      Sys2Proof.core.run ((wordEvents s.cfg.framing (encode i).word).length - 1) t =
        .next (resume (afterWord (encode i).word s))

/-- A pixel byte reaches its intended address in frame memory, and no other unit changes (20_memory R96; 41 R216;
42 R266; 43 R305). -/
def Obligations.PixelByteReachesItsAddress : Prop :=
  ∀ (s : State) (i : Instr) (b : Byte) (a : Nat), i ∈ [.epdPixelData b, .goledPixelData b, .woledPixelData b] →
    wireVariant i = some s.cfg.variant → s.mode ≠ .halted → s.bus = [] → quiet 4 s → pixelAddr s = some a →
    ∃ t m, exec i s = .next t ∧ (∀ a', Memory.read t.fm a' = Memory.read s.fm a') ∧
      Sys2Proof.core.run 3 t = .next (resume { afterWord ⟨[], [b]⟩ s with fm := m }) ∧
      Memory.read m a = some b ∧ ∀ a', a' ≠ a → Memory.read m a' = Memory.read s.fm a'

/-- The model's own stops: a pixel byte whose intended address is no unit of the panel stops at its transfer (log 17;
20_memory R90 says no request reaches it), and a wire command of another variant is no command of the instance (log 13;
30_encoding R123, R126, R129). -/
def Obligations.ModelStops : Prop :=
  (∀ (s : State) (i : Instr) (b : Byte), i ∈ [.epdPixelData b, .goledPixelData b, .woledPixelData b] →
    wireVariant i = some s.cfg.variant → s.mode ≠ .halted → s.bus = [] → quiet 4 s → pixelAddr s = none →
    ∃ t, exec i s = .next t ∧ Sys2Proof.core.run 2 t = .fault .noSuchFrameUnit) ∧
  ∀ (s : State) (i : Instr) (v : Variant), wireVariant i = some v → s.cfg.variant ≠ v → s.mode ≠ .halted →
    exec i s = .refused .notInVariant

/-- The opcode sets are closed (30_encoding R126, R129): at command level the sequencer stands at no other bytes. On GOLED
those are, while INIT runs, commands of the instance's GOLED_INIT_BLOCK, and after it the two window commands. -/
def Obligations.OpcodeSetsAreClosed : Prop :=
  ∀ (s : State) (w : WireWord), Inv s → s.send = some w →
    (s.cfg.variant = .epd → w.cmd = [] ∨ ∃ op ∈ epdOpcodes, w.cmd = [op]) ∧
    (s.cfg.variant = .goled →
      (s.mode = .initializing → w.cmd ∈ s.cfg.goledInitBlock) ∧
      (s.mode ≠ .initializing → w.cmd = [] ∨ ∃ a b, w.cmd = [0x15, a, b] ∨ w.cmd = [0x75, a, b])) ∧
    (s.cfg.variant = .woled → w.cmd = [] ∨ w.cmd ∈ [[0x20, 0x00], [0xA1], [0xC8], [0xAF]] ∨
      ∃ a b, w.cmd = [0x21, a, b] ∨ w.cmd = [0x22, a, b])

/-- `0x21`, `0x18` and `0x22` (and `0x01`, `0x11`, `0x3C`) are sent only while EPD_INIT_SEQ runs: a step that brings the
sequencer to an EPD command outside INIT brings it to one of the frame write or the commit (41 R206, R220, R221, R224),
and to `0x20` with no payload (R228). -/
def Obligations.InitOnlyCommands : Prop :=
  ∀ (s t : State) (op : Byte) (p : List Byte), Inv s → s.mode ≠ .halted → s.cfg.variant = .epd → step s = .next t →
    t.send = some ⟨[op], p⟩ → t.mode = .initializing ∨
      (op ∈ [0x44, 0x45, 0x4E, 0x4F, 0x24, 0x20] ∧ (op = 0x20 → p = []))

/-! ### Address bytes and packers -/

/-- Free draws (00_scope R18; 20_memory R94; their form is log 7 and log 26): `enc8` and `enc16` are the value where it fits,
and otherwise free draws, each a draw of its own; and a read of a pixel function, a buffer, a string or a glyph that the host
has changed while the request runs is any Color of the variant, any byte or any bit, where an unchanged one is its value. -/
def Obligations.FreeDraws : Prop :=
  (∀ (v : Int) (n : Nat),
    (0 ≤ v → v ≤ 255 → ((enc8 n v).1.toNat : Int) = v ∧ (enc8 n v).2 = n) ∧
    ((v < 0 ∨ 255 < v) → enc8 n v = (Config.freeByte n, n + 1)) ∧
    (0 ≤ v → v < 65536 →
      ((enc16 n v).1.toNat : Int) = v % 256 ∧ ((enc16 n v).2.1.toNat : Int) = v / 256 ∧ (enc16 n v).2.2 = n) ∧
    ((v < 0 ∨ 65536 ≤ v) → enc16 n v = (Config.freeByte n, Config.freeByte (n + 1), n + 2))) ∧
  (∀ (s : State) (c : Color) (b : Byte) (rest : List Bool),
    let drawn : State := { s with changed := rest, draws := s.draws + 1 }
    (s.changed = true :: rest →
      (s.src = .callback ∨ s.src = .buffer → pixRead c s = (freeColor s.cfg.variant (Config.freeByte s.draws), drawn)) ∧
      strRead s = (Config.freeByte s.draws, drawn) ∧ glyphRead s = ((Config.freeByte s.draws).getLsbD 0, drawn)) ∧
    (s.changed = false :: rest →
      (s.src = .callback ∨ s.src = .buffer → pixRead c s = (c, { s with changed := rest })) ∧
      (s.ports.str[s.text.i]? = some b → strRead s = (b, { s with changed := rest })) ∧
      glyphRead s = (glyphBit s.cfg s.text.ch s.text.gr s.text.gc, { s with changed := rest })) ∧
    (s.src = .constant ∨ s.src = .text → pixRead c s = (c, s))) ∧
  ∀ v : Variant, (∀ b, colorOk v (freeColor v b) = true) ∧ ∀ c, colorOk v c = true → ∃ b, freeColor v b = c

/-- The nibble packer (42 R265, R282): each lane keeps its low 4 bits, left high; on 0..15 it is a bijection onto the
bytes. -/
def Obligations.NibblePacker : Prop :=
  (∀ l r : Color, (packNibbles l r).toNat = l.toNat % 16 * 16 + r.toNat % 16) ∧
  (∀ b : Byte, ∃ l r : Color, l.toNat ≤ 15 ∧ r.toNat ≤ 15 ∧ packNibbles l r = b ∧
    ∀ l' r' : Color, l'.toNat ≤ 15 → r'.toNat ≤ 15 → packNibbles l' r' = b → l' = l ∧ r' = r) ∧
  packNibbles 0xF 0x3 = 0xF3 ∧ packNibbles 0x0 0xF = 0x0F ∧ packNibbles 0x1F 0x23 = 0xF3 ∧ packNibbles 0xA 0x5 = 0xA5

/-- The EPD column packer (41 R215): eight queries from left to right give the byte whose bit 7 is the leftmost pixel.
That K stays 7 after its loop is the model's choice (log 27). -/
def Obligations.EpdPacksEightPixels : Prop :=
  ∀ (s : State) (f : Int → Int → Color), s.mode = .writing → s.pos = .epdPixel → s.bus = [] → s.send = none →
    s.sr = 0 → s.epd.k = 0 → s.changed = [] →
    (∀ k : Nat, k < 8 → pix s (s.epd.xa + 8 * s.epd.g + k) s.epd.j = some (f (s.epd.xa + 8 * s.epd.g + k) s.epd.j)) →
    Sys2Proof.core.run 8 s = .next { s with
      sr := epdByte f (s.epd.xa + 8 * s.epd.g) s.epd.j
      epd := { s.epd with k := 7 }
      send := some ⟨[], [epdByte f (s.epd.xa + 8 * s.epd.g) s.epd.j]⟩
      pos := .epdNextGroup }

/-- The GOLED pair (42 R262, R265): left query, right query, then the packed byte is due. -/
def Obligations.GoledPacksTwoPixels : Prop :=
  ∀ (s : State) (f : Int → Int → Color), s.mode = .writing → s.pos = .goledLeft → s.bus = [] → s.send = none →
    s.changed = [] →
    pix s (2 * s.goled.c) s.goled.r = some (f (2 * s.goled.c) s.goled.r) →
    pix s (2 * s.goled.c + 1) s.goled.r = some (f (2 * s.goled.c + 1) s.goled.r) →
    Sys2Proof.core.run 2 s = .next { s with
      sr := goledByte f s.goled.c s.goled.r
      goled := { s.goled with l := f (2 * s.goled.c) s.goled.r, rt := f (2 * s.goled.c + 1) s.goled.r }
      send := some ⟨[], [goledByte f s.goled.c s.goled.r]⟩
      pos := .goledNextPair }

/-- The WOLED vertical packer (43 R304): eight queries from bottom to top give the byte whose bit 0 is the topmost
pixel. That OFF stays 0 after its loop is the model's choice (log 27). -/
def Obligations.WoledPacksEightPixels : Prop :=
  ∀ (s : State) (f : Int → Int → Color), s.mode = .writing → s.pos = .woledPixel → s.bus = [] → s.send = none →
    s.sr = 0 → s.woled.off = 7 → s.changed = [] →
    (∀ o : Nat, o < 8 → pix s s.woled.c (8 * s.woled.p + o) = some (f s.woled.c (8 * s.woled.p + o))) →
    Sys2Proof.core.run 8 s = .next { s with
      sr := woledByte f s.woled.c s.woled.p
      woled := { s.woled with off := 0 }
      send := some ⟨[], [woledByte f s.woled.c s.woled.p]⟩
      pos := .woledNextColumn }

/-! ### Frame writes -/

/-- An EPD frame write begins (41 R211, R222): x is masked down and width floored to multiples of 8, the inclusive ends are
clipped to 199, and the X window command is due with the start and end byte columns. -/
def Obligations.EpdFrameWriteBegins : Prop :=
  ∀ (s : State) (x y w h : Half), s.mode = .idle → s.cfg.variant = .epd → x.toNat + w.toNat ≤ 65535 →
    y.toNat + h.toNat ≤ 65535 →
    (s.cfg.degenerateExtent = .empty ∨ (8 ≤ w.toNat ∧ 0 < h.toNat ∧ x.toNat < 200 ∧ y.toNat < 200)) →
    let X : Int := x.toNat
    let Y : Int := y.toNat
    let W : Int := w.toNat
    let H : Int := h.toNat
    let xa : Int := X - X % 8
    let wa : Int := W - W % 8
    let xe : Int := if xa + wa ≥ 200 then 199 else xa + wa - 1
    let ye : Int := if Y + H ≥ 200 then 199 else Y + H - 1
    let first := enc8 s.draws (xa / 8)
    let last := enc8 first.2 (xe / 8)
    let begins (op : Byte) (src : PixSource) : Host.Outcome State Fault Refusal :=
      .next { s with
        latch := ⟨op, 0, 0, 0, x, y, w, h⟩
        src := src
        mode := .writing
        epd := { s.epd with xa := xa, wa := wa, xe := xe, ye := ye }
        send := some ⟨[0x44], [first.1, last.1]⟩
        draws := last.2
        pos := .epdYWindow }
    exec (.setFrameCallback x y w h) s = begins 0x02 .callback ∧ exec (.setFrameBuffer x y w h) s = begins 0x03 .buffer

/-- A GOLED frame write that passes the guard begins (42 R262, R270): x and width are halved before clipping. -/
def Obligations.GoledFrameWriteBegins : Prop :=
  ∀ (s : State) (x y w h : Half), s.mode = .idle → s.cfg.variant = .goled → x.toNat + w.toNat ≤ 65535 →
    y.toNat + h.toNat ≤ 65535 → x.toNat < 128 → y.toNat ≤ 128 → 2 ≤ w.toNat → 0 < h.toNat →
    (s.cfg.degenerateExtent = .empty ∨ y.toNat < 128) →
    let X : Int := x.toNat
    let Y : Int := y.toNat
    let W : Int := w.toNat
    let H : Int := h.toNat
    let xc : Int := X / 2
    let wc : Int := W / 2
    let ce : Int := min (xc + wc - 1) 63
    let re : Int := min (Y + H - 1) 127
    let begins (op : Byte) (src : PixSource) : Host.Outcome State Fault Refusal :=
      .next { s with
        latch := ⟨op, 0, 0, 0, x, y, w, h⟩
        src := src
        mode := .writing
        goled := { s.goled with xc := xc, wc := wc, ce := ce, re := re }
        send := some ⟨[0x15, BitVec.ofInt 8 xc, BitVec.ofInt 8 ce], []⟩
        pos := .goledRowWindow }
    exec (.setFrameCallback x y w h) s = begins 0x02 .callback ∧ exec (.setFrameBuffer x y w h) s = begins 0x03 .buffer

/-- The GOLED early-return guard (42 R261): the request completes with no event, no query and nothing changed but the
latch (and which source the request named). -/
def Obligations.GoledGuardIsANoOp : Prop :=
  ∀ (s : State) (x y w h : Half), s.mode = .idle → s.cfg.variant = .goled →
    x.toNat + w.toNat ≤ 65535 → y.toNat + h.toNat ≤ 65535 →
    (64 ≤ x.toNat / 2 ∨ 128 < y.toNat ∨ w.toNat / 2 = 0 ∨ h.toNat = 0) →
    exec (.setFrameCallback x y w h) s =
      .next { s with latch := ⟨0x02, 0, 0, 0, x, y, w, h⟩, src := .callback, pos := .idle } ∧
    exec (.setFrameBuffer x y w h) s =
      .next { s with latch := ⟨0x03, 0, 0, 0, x, y, w, h⟩, src := .buffer, pos := .idle }

/-- A WOLED frame write begins (43 R301, R314): y and height are divided by 8, x is not aligned, the ends are clipped. -/
def Obligations.WoledFrameWriteBegins : Prop :=
  ∀ (s : State) (x y w h : Half), s.mode = .idle → s.cfg.variant = .woled → x.toNat + w.toNat ≤ 65535 →
    y.toNat + h.toNat ≤ 65535 →
    (s.cfg.degenerateExtent = .empty ∨ (0 < w.toNat ∧ 8 ≤ h.toNat ∧ x.toNat < 128 ∧ y.toNat < 64)) →
    let X : Int := x.toNat
    let Y : Int := y.toNat
    let W : Int := w.toNat
    let H : Int := h.toNat
    let pg : Int := Y / 8
    let ph : Int := H / 8
    let xe : Int := min (X + W - 1) 127
    let pe : Int := min (pg + ph - 1) 7
    let first := enc8 s.draws X
    let last := enc8 first.2 xe
    let begins (op : Byte) (src : PixSource) : Host.Outcome State Fault Refusal :=
      .next { s with
        latch := ⟨op, 0, 0, 0, x, y, w, h⟩
        src := src
        mode := .writing
        woled := { s.woled with pg := pg, ph := ph, xe := xe, pe := pe }
        send := some ⟨[0x21, first.1, last.1], []⟩
        draws := last.2
        pos := .woledPageWindow }
    exec (.setFrameCallback x y w h) s = begins 0x02 .callback ∧ exec (.setFrameBuffer x y w h) s = begins 0x03 .buffer

/-- CLEAR_FRAME begins a frame write of the whole panel, never clipped, guarded or degenerate (40 R168). -/
def Obligations.ClearFrameBegins : Prop :=
  ∀ (s : State) (c : Byte), s.mode = .idle → (s.cfg.variant ≠ .goled → c.toNat ≤ 1) →
    let latched := { s with latch := (⟨0x04, c, 0, 0, 0, 0, 0, 0⟩ : Latch), src := PixSource.constant, mode := .writing }
    (s.cfg.variant = .epd → exec (.clearFrame c) s = .next { latched with
      epd := { s.epd with xa := 0, wa := 200, xe := 199, ye := 199 }
      send := some ⟨[0x44], [0x00, 0x18]⟩, pos := .epdYWindow }) ∧
    (s.cfg.variant = .goled → exec (.clearFrame c) s = .next { latched with
      goled := { s.goled with xc := 0, wc := 64, ce := 63, re := 127 }
      send := some ⟨[0x15, 0x00, 0x3F], []⟩, pos := .goledRowWindow }) ∧
    (s.cfg.variant = .woled → exec (.clearFrame c) s = .next { latched with
      woled := { s.woled with pg := 0, ph := 8, xe := 127, pe := 7 }
      send := some ⟨[0x21, 0x00, 0x7F], []⟩, pos := .woledPageWindow })

/-- A whole EPD frame write from a pixel function, busy clear at each row: its trace, event for event, and the frame
memory after it; everything outside the clipped window is unchanged (41 R211, R214 to R216; 20_memory R96). -/
def Obligations.EpdFrameWriteFillsTheWindow : Prop :=
  ∀ (s : State) (x y w h : Half) (rest : List Level), s.mode = .idle → s.cfg.variant = .epd → s.bus = [] →
    s.send = none → s.oracle = none → s.changed = [] → x.toNat + w.toNat ≤ 65535 → y.toNat + h.toNat ≤ 65535 →
    8 ≤ w.toNat → 0 < h.toNat → x.toNat < 200 → y.toNat < 200 →
    let f := pixelFnAt s.ports.f
    let b0 := x.toNat / 8
    let groups := min (w.toNat / 8) (25 - b0)
    let rows := min h.toNat (200 - y.toNat)
    let fr := s.cfg.framing
    s.busyIn = List.replicate rows (busyClearLevel s.cfg) ++ rest →
    ∃ n t u, exec (.setFrameCallback x y w h) s = .next t ∧ Sys2Proof.core.run n t = .next u ∧
      u.mode = .idle ∧ u.pos = .idle ∧ u.bus = [] ∧ u.send = none ∧ u.busyIn = rest ∧
      u.trace = s.trace
        ++ cmdEvents [0x44] ++ dataEvents fr [BitVec.ofNat 8 b0, BitVec.ofNat 8 (b0 + groups - 1)]
        ++ cmdEvents [0x45] ++ dataEvents fr [BitVec.ofNat 8 y.toNat, 0, BitVec.ofNat 8 (y.toNat + rows - 1), 0]
        ++ (List.range rows).flatMap (fun r =>
          cmdEvents [0x4E] ++ dataEvents fr [BitVec.ofNat 8 b0]
          ++ cmdEvents [0x4F] ++ dataEvents fr [BitVec.ofNat 8 (y.toNat + r), 0]
          ++ [.busySample false] ++ cmdEvents [0x24]
          ++ (List.range groups).flatMap (fun g => dataEvents fr [epdByte f (8 * (b0 + g : Nat)) (y.toNat + r : Nat)])) ∧
      (∀ bc row : Nat, bc < 25 → row < 200 →
        Memory.read u.fm (25 * row + bc) =
          if b0 ≤ bc ∧ bc < b0 + groups ∧ y.toNat ≤ row ∧ row < y.toNat + rows then some (epdByte f (8 * bc) row)
          else Memory.read s.fm (25 * row + bc)) ∧
      ∀ a, 5000 ≤ a → Memory.read u.fm a = Memory.read s.fm a

/-- A whole GOLED frame write from a pixel function: its trace and the frame memory after it (42 R262, R264 to R266). -/
def Obligations.GoledFrameWriteFillsTheWindow : Prop :=
  ∀ (s : State) (x y w h : Half), s.mode = .idle → s.cfg.variant = .goled → s.bus = [] → s.send = none →
    s.oracle = none → s.changed = [] → x.toNat + w.toNat ≤ 65535 → y.toNat + h.toNat ≤ 65535 →
    2 ≤ w.toNat → 0 < h.toNat → x.toNat < 128 → y.toNat < 128 →
    let f := pixelFnAt s.ports.f
    let c0 := x.toNat / 2
    let pairs := min (w.toNat / 2) (64 - c0)
    let rows := min h.toNat (128 - y.toNat)
    ∃ n t u, exec (.setFrameCallback x y w h) s = .next t ∧ Sys2Proof.core.run n t = .next u ∧
      u.mode = .idle ∧ u.pos = .idle ∧ u.bus = [] ∧ u.send = none ∧
      u.trace = s.trace
        ++ cmdEvents [0x15, BitVec.ofNat 8 c0, BitVec.ofNat 8 (c0 + pairs - 1)]
        ++ cmdEvents [0x75, BitVec.ofNat 8 y.toNat, BitVec.ofNat 8 (y.toNat + rows - 1)]
        ++ (List.range rows).flatMap (fun r => (List.range pairs).flatMap (fun c =>
          dataEvents s.cfg.framing [goledByte f (c0 + c : Nat) (y.toNat + r : Nat)])) ∧
      (∀ cp row : Nat, cp < 64 → row < 128 →
        Memory.read u.fm (64 * row + cp) =
          if c0 ≤ cp ∧ cp < c0 + pairs ∧ y.toNat ≤ row ∧ row < y.toNat + rows then some (goledByte f cp row)
          else Memory.read s.fm (64 * row + cp)) ∧
      ∀ a, 8192 ≤ a → Memory.read u.fm a = Memory.read s.fm a

/-- A whole WOLED frame write from a pixel function: its trace and the frame memory after it (43 R301, R303 to R305). -/
def Obligations.WoledFrameWriteFillsTheWindow : Prop :=
  ∀ (s : State) (x y w h : Half), s.mode = .idle → s.cfg.variant = .woled → s.bus = [] → s.send = none →
    s.oracle = none → s.changed = [] → x.toNat + w.toNat ≤ 65535 → y.toNat + h.toNat ≤ 65535 →
    0 < w.toNat → 8 ≤ h.toNat → x.toNat < 128 → y.toNat < 64 →
    let f := pixelFnAt s.ports.f
    let p0 := y.toNat / 8
    let columns := min w.toNat (128 - x.toNat)
    let pages := min (h.toNat / 8) (8 - p0)
    ∃ n t u, exec (.setFrameCallback x y w h) s = .next t ∧ Sys2Proof.core.run n t = .next u ∧
      u.mode = .idle ∧ u.pos = .idle ∧ u.bus = [] ∧ u.send = none ∧
      u.trace = s.trace
        ++ cmdEvents [0x21, BitVec.ofNat 8 x.toNat, BitVec.ofNat 8 (x.toNat + columns - 1)]
        ++ cmdEvents [0x22, BitVec.ofNat 8 p0, BitVec.ofNat 8 (p0 + pages - 1)]
        ++ (List.range pages).flatMap (fun p => (List.range columns).flatMap (fun c =>
          dataEvents s.cfg.framing [woledByte f (x.toNat + c : Nat) (p0 + p : Nat)])) ∧
      (∀ col pg : Nat, col < 128 → pg < 8 →
        Memory.read u.fm (128 * pg + col) =
          if x.toNat ≤ col ∧ col < x.toNat + columns ∧ p0 ≤ pg ∧ pg < p0 + pages then some (woledByte f col pg)
          else Memory.read s.fm (128 * pg + col)) ∧
      ∀ a, 1024 ≤ a → Memory.read u.fm a = Memory.read s.fm a

/-- CLEAR_FRAME leaves every unit of the panel at the one byte of 40 R168, so a second one changes nothing (R169). -/
def Obligations.ClearFrameFillsThePanel : Prop :=
  ∀ (s : State) (c : Byte) (rest : List Level), s.mode = .idle → s.bus = [] → s.send = none → s.oracle = none →
    (s.cfg.variant ≠ .goled → c.toNat ≤ 1) →
    (s.cfg.variant = .epd → s.busyIn = List.replicate 200 (busyClearLevel s.cfg) ++ rest) →
    let byte : Byte :=
      match s.cfg.variant with
      | .epd => if c = 1 then 0xFF else 0x00
      | .goled => BitVec.ofNat 8 (c.toNat % 16 * 16 + c.toNat % 16)
      | .woled => if c = 1 then 0xFF else 0x00
    ∃ n t u, exec (.clearFrame c) s = .next t ∧ Sys2Proof.core.run n t = .next u ∧ u.mode = .idle ∧ u.pos = .idle ∧
      (∀ a, a < fmUnits s.cfg.variant → Memory.read u.fm a = some byte) ∧
      ∀ a, fmUnits s.cfg.variant ≤ a → Memory.read u.fm a = Memory.read s.fm a

/-- Degenerate windows under EMPTY, with no failure and busy clear at each row (20_memory R83; 41 R217; 42 R267; 43 R302):
the window commands are still sent, with the computed ends, and no frame-memory unit changes. On EPD each row the window
has gets its pointer, its busy wait and 0x24 with no data byte, and a window degenerate in y has no row; on GOLED (y = 128)
and WOLED nothing follows the two window commands, in as many steps as they have events. -/
def Obligations.DegenerateWindowsSendOnlyTheirCommands : Prop :=
  ∀ (s : State) (x y w h : Half), s.mode = .idle → s.bus = [] → s.send = none → s.oracle = none →
    x.toNat + w.toNat ≤ 65535 → y.toNat + h.toNat ≤ 65535 → s.cfg.degenerateExtent = .empty →
    (s.cfg.variant = .epd → (w.toNat < 8 ∨ h.toNat = 0 ∨ 200 ≤ x.toNat ∨ 200 ≤ y.toNat) →
      let fr := s.cfg.framing
      let rows := min h.toNat (200 - y.toNat)
      let xEnd := min (8 * (x.toNat / 8) + 8 * (w.toNat / 8)) 200
      let yEnd := min (y.toNat + h.toNat) 200
      ∀ rest, s.busyIn = List.replicate rows (busyClearLevel s.cfg) ++ rest →
      ∃ (n : Nat) (t u : State) (a b c d : Byte) (p : Nat → Byte),
        exec (.setFrameCallback x y w h) s = .next t ∧ Sys2Proof.core.run n t = .next u ∧
        u.mode = .idle ∧ u.pos = .idle ∧ u.busyIn = rest ∧
        u.trace = s.trace ++ cmdEvents [0x44] ++ dataEvents fr [a, b]
          ++ cmdEvents [0x45] ++ dataEvents fr [BitVec.ofNat 8 y.toNat, BitVec.ofNat 8 (y.toNat / 256), c, d]
          ++ (List.range rows).flatMap (fun r =>
            cmdEvents [0x4E] ++ dataEvents fr [p r] ++ cmdEvents [0x4F] ++ dataEvents fr [BitVec.ofNat 8 (y.toNat + r), 0]
            ++ [.busySample false] ++ cmdEvents [0x24]) ∧
        (x.toNat / 8 ≤ 255 → a.toNat = x.toNat / 8 ∧ ∀ r, r < rows → (p r).toNat = x.toNat / 8) ∧
        (0 < xEnd → b.toNat = (xEnd - 1) / 8) ∧
        (0 < yEnd → c.toNat = yEnd - 1 ∧ d = 0) ∧
        ∀ k, Memory.read u.fm k = Memory.read s.fm k) ∧
    (s.cfg.variant = .goled → x.toNat < 128 → y.toNat = 128 → 2 ≤ w.toNat → 0 < h.toNat →
      ∃ t u, exec (.setFrameCallback x y w h) s = .next t ∧ Sys2Proof.core.run 12 t = .next u ∧
        u.mode = .idle ∧ u.pos = .idle ∧
        u.trace = s.trace
          ++ cmdEvents [0x15, BitVec.ofNat 8 (x.toNat / 2), BitVec.ofNat 8 (min (x.toNat / 2 + w.toNat / 2 - 1) 63)]
          ++ cmdEvents [0x75, 0x80, 0x7F] ∧
        ∀ k, Memory.read u.fm k = Memory.read s.fm k) ∧
    (s.cfg.variant = .woled → (w.toNat = 0 ∨ h.toNat < 8 ∨ 128 ≤ x.toNat ∨ 64 ≤ y.toNat) →
      ∃ t u a b c d, exec (.setFrameCallback x y w h) s = .next t ∧ Sys2Proof.core.run 12 t = .next u ∧
        u.mode = .idle ∧ u.pos = .idle ∧ u.trace = s.trace ++ cmdEvents [0x21, a, b] ++ cmdEvents [0x22, c, d] ∧
        (x.toNat ≤ 255 → a.toNat = x.toNat) ∧ (0 < x.toNat + w.toNat → b.toNat = min (x.toNat + w.toNat - 1) 127) ∧
        (y.toNat / 8 ≤ 255 → c.toNat = y.toNat / 8) ∧
        (0 < y.toNat / 8 + h.toNat / 8 → d.toNat = min (y.toNat / 8 + h.toNat / 8 - 1) 7) ∧
        ∀ k, Memory.read u.fm k = Memory.read s.fm k)

/-- The buffer adapter (20_memory R73), over the bound buffer and the request's rectangle, or over TB and the character's
cell (44 R331, R333): a query inside the rectangle and the buffer gives `BUF[row*width + col]`, any other raises
ADAPTER_RANGE at the query, after every event so far, and ends the request. -/
def Obligations.BufferAdapter : Prop :=
  ∀ (s : State) (px py : Int),
    (s.src = .buffer →
      let x : Int := s.latch.x.toNat
      let y : Int := s.latch.y.toNat
      let w : Int := s.latch.w.toNat
      let h : Int := s.latch.h.toNat
      let inside : Prop := y ≤ py ∧ py < y + h ∧ x ≤ px ∧ px < x + w
      let index : Nat := ((py - y) * w + (px - x)).toNat
      (inside → ∀ hl : index < s.ports.buf.length, pix s px py = some s.ports.buf[index]) ∧
      (¬ inside ∨ s.ports.buf.length ≤ index → pix s px py = none)) ∧
    (s.src = .text →
      let y : Int := s.latch.y.toNat
      let inside : Prop := y ≤ py ∧ py < y + 8 ∧ s.text.cx ≤ px ∧ px < s.text.cx + 8
      (inside → pix s px py = s.tb[((py - y) * 8 + (px - s.text.cx)).toNat]? ∧ pix s px py ≠ none) ∧
      (¬ inside → pix s px py = none)) ∧
    (s.src = .buffer ∨ s.src = .text → pix s px py = none → s.mode ≠ .halted → s.bus = [] → s.send = none →
      ((s.pos = .epdPixel ∧ px = s.epd.xa + 8 * s.epd.g + s.epd.k ∧ py = s.epd.j) ∨
       (s.pos = .goledLeft ∧ px = 2 * s.goled.c ∧ py = s.goled.r) ∨
       (s.pos = .goledRight ∧ px = 2 * s.goled.c + 1 ∧ py = s.goled.r) ∨
       (s.pos = .woledPixel ∧ px = s.woled.c ∧ py = 8 * s.woled.p + s.woled.off)) →
      FaultsInPlace (step s) .adapterRange s)

/-- Buffer-callback equivalence (40 R167): while a SET_FRAME_BUFFER raises no ADAPTER_RANGE, it emits what
SET_FRAME_CALLBACK over the same window emits with a function equal to the buffer on its rectangle, step for step, and
leaves the same frame memory. -/
def Obligations.BufferWriteEqualsCallbackWrite : Prop :=
  ∀ (s : State) (x y w h : Half) (n : Nat) (t u : State), s.mode = .idle → s.bus = [] → s.send = none → s.host = [] →
    s.changed = [] →
    (∀ px py i c, adapterIndex ⟨x.toNat, y.toNat, w.toNat, h.toNat⟩ s.ports.buf.length px py = some i →
      s.ports.buf[i]? = some c → pixelFnAt s.ports.f px py = c) →
    exec (.setFrameBuffer x y w h) s = .next t → Sys2Proof.core.run n t = .next u →
    u.haltCause ≠ some .adapterRange → u.pos ≠ .halting .adapterRange →
    ∃ t' u', exec (.setFrameCallback x y w h) s = .next t' ∧ Sys2Proof.core.run n t' = .next u' ∧
      u'.trace = u.trace ∧ u'.mode = u.mode ∧ u'.pins = u.pins ∧ ∀ a, Memory.read u'.fm a = Memory.read u.fm a

/-! ### Busy waits and the commit -/

/-- `WaitBusy()` that finds busy asserted n times (41 R230): n samples each followed by the poll delay, then the sample
that is clear, and the wait ends. It has no timeout (R231): however long busy stays asserted, the block is still in the
same wait, in the same mode, having taken no request. -/
def Obligations.BusyWaitPolls : Prop :=
  ∀ (s : State) (site : WaitSite) (n : Nat) (rest : List Level), s.mode ≠ .halted → s.pos = .sample site → s.bus = [] →
    s.send = none → quiet (n + 1) s →
    (s.busyIn = List.replicate n s.cfg.busyActiveLevel ++ busyClearLevel s.cfg :: rest →
      Sys2Proof.core.run (2 * n + 1) s = .next (waitDone site { s with
        busyIn := rest
        trace := s.trace ++ waitEvents s.cfg.pollMs n
        ops := s.ops + (n + 1) })) ∧
    (s.busyIn = List.replicate n s.cfg.busyActiveLevel ++ rest →
      Sys2Proof.core.run (2 * n) s = .next { s with
        busyIn := rest
        trace := s.trace ++ (List.replicate n [Event.busySample true, Event.delay s.cfg.pollMs]).flatten
        ops := s.ops + n })

/-- The busy input is sampled only inside WaitBusy, each sample is one event and is used once; GOLED and WOLED sample
nothing (10_state R42). -/
def Obligations.BusyIsSampledOnlyInAWait : Prop :=
  ∀ s t : State, step s = .next t →
    (t.busyIn = s.busyIn ∧ t.busyReads = s.busyReads ∨
      (∃ site, s.pos = .sample site) ∧ (∃ v, t.trace = s.trace ++ [.busySample v]) ∧
        ((∃ l, s.busyIn = l :: t.busyIn ∧ t.busyReads = s.busyReads) ∨
          (s.busyIn = [] ∧ t.busyIn = [] ∧ t.busyReads = s.busyReads + 1))) ∧
    (Inv s → s.cfg.variant ≠ .epd → t.busyIn = s.busyIn ∧ t.busyReads = s.busyReads)

/-- DISPLAY_FRAME (40 R170): on EPD (41 R240; 20_memory R97) MODE is BUSY_UPDATING, the activate command is sent, the busy
wait runs, and the visible image becomes frame memory; on GOLED and WOLED it is a no-op (42 R280; 43 R320). -/
def Obligations.DisplayFrame : Prop :=
  ∀ s : State, s.mode = .idle →
    (s.cfg.variant ≠ .epd → exec .displayFrame s =
      .next { s with latch := ⟨0x05, 0, 0, 0, 0, 0, 0, 0⟩, pos := .idle }) ∧
    (s.cfg.variant = .epd → exec .displayFrame s = .next { s with
      latch := ⟨0x05, 0, 0, 0, 0, 0, 0, 0⟩, mode := .busyUpdating, send := some ⟨[0x20], []⟩, pos := .sample .commit }) ∧
    ∀ (n : Nat) (rest : List Level), s.cfg.variant = .epd → s.bus = [] → quiet (n + 5) s →
      s.busyIn = List.replicate n s.cfg.busyActiveLevel ++ busyClearLevel s.cfg :: rest →
      ∃ t u, exec .displayFrame s = .next t ∧ Sys2Proof.core.run (2 * n + 5) t = .next u ∧ u.mode = .idle ∧
        u.pos = .idle ∧ u.busyIn = rest ∧ u.trace = s.trace ++ cmdEvents [0x20] ++ waitEvents s.cfg.pollMs n ∧
        (∀ a, Memory.read (visible u) a = Memory.read s.fm a) ∧ ∀ a, Memory.read u.fm a = Memory.read s.fm a

/-- Frame memory changes only when a pixel byte is transferred, and only at its address; writing the same byte again
leaves it as it is (20_memory R96). -/
def Obligations.FrameMemoryChangesOnlyAtPixelTransfers : Prop :=
  (∀ s t : State, step s = .next t →
    (∀ a, Memory.read t.fm a = Memory.read s.fm a) ∨
    ∃ b d a rest, s.bus = .xfer b (some d) :: rest ∧ fmAddr s.cfg.variant d = some a ∧
      t.trace = s.trace ++ [.xfer b] ∧ Memory.read t.fm a = some b ∧
      ∀ a', a' ≠ a → Memory.read t.fm a' = Memory.read s.fm a') ∧
  ∀ (m : List Host.Cell) (a : Nat) (b : Byte), Memory.write (Memory.write m a b) a b = Memory.write m a b

/-- The EPD visible image changes only at a commit's final clear sample, and then to the whole frame memory; on GOLED and
WOLED it is frame memory (20_memory R97; 41 R241). -/
def Obligations.VisibleImageChangesOnlyAtCommit : Prop :=
  ∀ s t : State, step s = .next t →
    (s.cfg.variant = .epd →
      (∀ a, Memory.read (visible t) a = Memory.read (visible s) a) ∨
      (s.pos = .sample .commit ∧ t.mode = .idle ∧ t.trace = s.trace ++ [.busySample false] ∧
        ∀ a, Memory.read (visible t) a = Memory.read t.fm a)) ∧
    (s.cfg.variant ≠ .epd → visible t = t.fm)

/-! ### Text -/

/-- DRAW_TEXT begins at its cursor, in WRITING, and its first read is the first byte of the string; an empty string ends at
once with no event (44 R331, R338; 40 R176; 20_memory R74). -/
def Obligations.DrawTextBegins : Prop :=
  ∀ (s : State) (fg bg : Byte) (x y n : Half), s.mode = .idle → x.toNat + 8 * n.toNat ≤ 65535 →
    y.toNat + 8 ≤ 65535 → (s.cfg.variant ≠ .goled → fg.toNat ≤ 1 ∧ bg.toNat ≤ 1) →
    let latched := { s with
      latch := (⟨0x06, fg, bg, 0, x, y, n, 0⟩ : Latch)
      src := PixSource.text
      text := { s.text with cx := (x.toNat : Int), i := 0 } }
    (n ≠ 0 → exec (.drawText fg bg x y n) s = .next { latched with mode := .writing, pos := .readChar } ∧
      ∀ b, s.bus = [] → s.send = none → s.changed = [] → s.ports.str[0]? = some b →
        Sys2Proof.core.run 1 { latched with mode := .writing, pos := .readChar } = .next { latched with
          mode := .writing
          text := { latched.text with ch := b, gr := 0, gc := 0 }
          pos := .readGlyph }) ∧
    (n = 0 → exec (.drawText fg bg x y n) s = .next { latched with pos := .idle })

/-- Glyph expansion (44 R331 to R333): 64 steps after a byte is read, TB holds the foreground where the glyph bit is set and
the background where it is clear, whatever it held before, and the cell's sub-write begins over it. That the
glyph row and column are fields, and stay 7 after their loops, is the model's choice (log 22, log 27). -/
def Obligations.GlyphExpansionFillsTheBuffer : Prop :=
  ∀ s : State, s.mode = .writing → s.pos = .readGlyph → s.bus = [] → s.send = none → s.text.gr = 0 → s.text.gc = 0 →
    s.changed = [] →
    ∃ tb : Vector Color 64,
      Sys2Proof.core.run 64 s =
        .next (startWrite { s with tb := tb, src := .text, text := { s.text with gr := 7, gc := 7 } }) ∧
      ∀ (r c : Nat) (hr : r < 8) (hc : c < 8),
        tb[8 * r + c] = if glyphBit s.cfg s.text.ch r c then s.latch.c0 else s.latch.c1

/-- A cell of DRAW_TEXT: `StrRead(I)` reads byte I of the bound string into CH, and its glyph is read from the top left (44
R331; 20_memory R74); its pixel source is TB as an 8x8 buffer at the cursor, pixel `(CX + c, y + r)` being `TB[8*r + c]`
and every other coordinate out of range (44 R332, R333); at its end the cursor advances by exactly 8, on the panel or off
it, and MODE stays WRITING until the last character (R333, R335). That I is left
at N and CX at x + 8*N is the model's choice (log 27). -/
def Obligations.TextCells : Prop :=
  (∀ (s : State) (b : Byte), s.mode ≠ .halted → s.pos = .readChar → s.bus = [] → s.send = none → s.changed = [] →
    s.ports.str[s.text.i]? = some b →
    step s = .next { s with text := { s.text with ch := b, gr := 0, gc := 0 }, pos := .readGlyph }) ∧
  ∀ (s : State) (px py : Int), s.src = .text →
    (∀ (r c : Nat) (hr : r < 8) (hc : c < 8), px = s.text.cx + c → py = s.latch.y.toNat + r →
      pix s px py = some s.tb[8 * r + c]) ∧
    (px < s.text.cx ∨ s.text.cx + 8 ≤ px ∨ py < s.latch.y.toNat ∨ s.latch.y.toNat + 8 ≤ py → pix s px py = none) ∧
    (s.text.i + 1 < s.latch.w.toNat →
      writeDone s = { s with text := { s.text with cx := s.text.cx + 8, i := s.text.i + 1 }, pos := .readChar }) ∧
    (s.latch.w.toNat ≤ s.text.i + 1 →
      writeDone s = { s with
        text := { s.text with cx := s.text.cx + 8, i := s.text.i + 1 }, mode := .idle, pos := .idle })

/-! ### Invariants -/

/-- EVERY STEP KEEPS THE INVARIANT. -/
def Obligations.EveryStepKeepsTheInvariant : Prop :=
  ∀ s t : State, Inv s → step s = .next t → Inv t

/-- In a state of the invariant no step stops: the block always goes on, or waits, or has halted as the spec says; no
request reaches the model's own fault or refusals (20_memory R90; 30_encoding R129). -/
def Obligations.InvariantStatesNeverStop : Prop :=
  ∀ s : State, Inv s → Proceeds s

/-- MODE moves only as 10_state R37, R38 and R39 say; there is no way back to UNINIT. -/
def Obligations.ModeMoves : Prop :=
  ∀ s t : State, Inv s → step s = .next t →
    modeMove s.cfg.variant s.mode t.mode = true ∧ (t.mode = .uninit → s.mode = .uninit)

/-- The bounds property (20_memory R90): every query is of a pixel on the panel, and every data byte on the bus is for a
unit of the panel. -/
def Obligations.BoundsProperty : Prop :=
  ∀ s : State, Inv s →
    (s.pos = .epdPixel →
      0 ≤ s.epd.xa + 8 * s.epd.g + s.epd.k ∧ s.epd.xa + 8 * s.epd.g + s.epd.k < 200 ∧ 0 ≤ s.epd.j ∧ s.epd.j < 200) ∧
    (s.pos = .goledLeft ∨ s.pos = .goledRight →
      0 ≤ 2 * s.goled.c ∧ 2 * s.goled.c + 1 < 128 ∧ 0 ≤ s.goled.r ∧ s.goled.r < 128) ∧
    (s.pos = .woledPixel →
      0 ≤ s.woled.c ∧ s.woled.c < 128 ∧ 0 ≤ 8 * s.woled.p + s.woled.off ∧ 8 * s.woled.p + s.woled.off < 64) ∧
    ∀ b d, BusOp.xfer b (some d) ∈ s.bus → ∃ a, fmAddr s.cfg.variant d = some a ∧ a < fmUnits s.cfg.variant

/-- Chip-select is deasserted whenever the block is between transactions, those of one EPD command among them (10_state R47;
inside the two events of a fault it keeps its level, 60 R364), and the pins move only as the
event that enters the trace says (R47, R48); the reset output moves only in the reset pulse (R49; 41 R202). -/
def Obligations.PinsFollowTheTrace : Prop :=
  (∀ s : State, Inv s → s.mode ≠ .halted → (∀ code, s.pos ≠ .halting code) →
    (s.bus = [] ∨ ∃ l rest, s.bus = .dc l :: rest) → s.pins.cs = .deassert) ∧
  ∀ s t : State, step s = .next t →
    (t.pins.rst ≠ s.pins.rst → s.pos = .resetLow ∨ s.pos = .resetHigh) ∧
    (t.pins = s.pins ∨
    (∃ l, t.trace = s.trace ++ [.dc l] ∧ t.pins = { s.pins with dc := l }) ∨
    (∃ l, t.trace = s.trace ++ [.cs l] ∧ t.pins = { s.pins with cs := l }) ∨
    (∃ l, t.trace = s.trace ++ [.setRst l] ∧ t.pins = { s.pins with rst := l }))
end

