-- ==== Sys2Proof/Laws/Memory.lean ====
section
/-! SUPPORT. Frame memory: a read after a write, and that a write keeps the canonical form. -/

namespace Sys2Proof.Machine

theorem memory_above_weaken {j k : Nat} {m : List Host.Cell} (hjk : j ≤ k) (h : Memory.above k m = true) :
    Memory.above j m = true := by
  cases m with
  | nil => rfl
  | cons c m =>
    simp only [Memory.above, Bool.and_eq_true, decide_eq_true_eq] at h ⊢
    exact ⟨by omega, h.2⟩

theorem memory_read_above {k a : Nat} {m : List Host.Cell} (h : Memory.above k m = true) (ha : a ≤ k) :
    Memory.read m a = none := by
  induction m generalizing k with
  | nil => rfl
  | cons c m ih =>
    obtain ⟨k', b⟩ := c
    simp only [Memory.above, Bool.and_eq_true, decide_eq_true_eq] at h
    have hne : a ≠ k' := by omega
    simp only [Memory.read, if_neg hne]
    exact ih h.2 (by omega)

/-- A read after a write to the same unit gives the byte written. -/
theorem memory_read_write_same (m : List Host.Cell) (a : Nat) (b : Byte) :
    Memory.read (Memory.write m a b) a = some b := by
  induction m with
  | nil => simp [Memory.write, Memory.read]
  | cons c m ih =>
    obtain ⟨k, v⟩ := c
    unfold Memory.write
    split_ifs with h1 h2
    · simp [Memory.read]
    · simp [Memory.read]
    · simp [Memory.read, h2, ih]

/-- A write leaves every other unit alone. -/
theorem memory_read_write_other (m : List Host.Cell) {a a' : Nat} (b : Byte) (h : a' ≠ a) :
    Memory.read (Memory.write m a b) a' = Memory.read m a' := by
  induction m with
  | nil => simp [Memory.write, Memory.read, Memory.unlisted, h]
  | cons c m ih =>
    obtain ⟨k, v⟩ := c
    unfold Memory.write
    split_ifs with h1 h2
    · simp [Memory.read, h]
    · subst h2; simp [Memory.read, h]
    · simp only [Memory.read, ih]

theorem memory_write_above {k a : Nat} {m : List Host.Cell} (b : Byte) (hk : k < a) (h : Memory.above k m = true) :
    Memory.above k (Memory.write m a b) = true := by
  induction m generalizing k with
  | nil => simp [Memory.write, Memory.above, hk]
  | cons c m ih =>
    obtain ⟨k', v⟩ := c
    simp only [Memory.above, Bool.and_eq_true, decide_eq_true_eq] at h
    unfold Memory.write
    split_ifs with h1 h2
    · simp [Memory.above, hk, h1, h.2]
    · subst h2; simp [Memory.above, h.1, h.2]
    · simp only [Memory.above, Bool.and_eq_true, decide_eq_true_eq]
      exact ⟨h.1, ih (by omega) h.2⟩

/-- A write keeps the canonical form. -/
theorem memory_write_wf {m : List Host.Cell} (a : Nat) (b : Byte) (h : Memory.wf m = true) :
    Memory.wf (Memory.write m a b) = true := by
  cases m with
  | nil => rfl
  | cons c m =>
    obtain ⟨k, v⟩ := c
    simp only [Memory.wf] at h
    unfold Memory.write
    split_ifs with h1 h2
    · simp [Memory.wf, Memory.above, h1, h]
    · subst h2; exact h
    · exact memory_write_above b (by omega) h

/-- Writing a unit of the panel keeps every address one of the panel. -/
theorem memory_write_all {m : List Host.Cell} {n a : Nat} (b : Byte) (ha : a < n)
    (h : m.all (fun c => decide (c.1 < n)) = true) :
    (Memory.write m a b).all (fun c => decide (c.1 < n)) = true := by
  induction m with
  | nil => simp [Memory.write, ha]
  | cons c m ih =>
    obtain ⟨k, v⟩ := c
    simp only [List.all_cons, Bool.and_eq_true, decide_eq_true_eq] at h
    unfold Memory.write
    split_ifs with h1 h2
    · simp only [List.all_cons, Bool.and_eq_true, decide_eq_true_eq]; exact ⟨ha, h.1, h.2⟩
    · simp only [List.all_cons, Bool.and_eq_true, decide_eq_true_eq]; exact ⟨ha, h.2⟩
    · simp only [List.all_cons, Bool.and_eq_true, decide_eq_true_eq]; exact ⟨h.1, ih h.2⟩

/-- The address of a frame-memory unit is one of the panel's. -/
theorem fmAddr_lt {v : Variant} {d : Int × Int} {a : Nat} (h : fmAddr v d = some a) : a < fmUnits v := by
  unfold fmAddr at h
  simp only [Option.ite_none_right_eq_some, Option.some.injEq] at h
  obtain ⟨⟨h1, h2, h3, h4⟩, rfl⟩ := h
  cases v <;> simp only [fmUnits, fmExtent] at * <;> omega

/-- Distinct units have distinct addresses. -/
theorem fmAddr_inj {v : Variant} {d e : Int × Int} {a : Nat} (hd : fmAddr v d = some a) (he : fmAddr v e = some a) :
    d = e := by
  unfold fmAddr at hd he
  simp only [Option.ite_none_right_eq_some, Option.some.injEq] at hd he
  obtain ⟨⟨h1, h2, h3, h4⟩, h5⟩ := hd
  obtain ⟨⟨k1, k2, k3, k4⟩, k5⟩ := he
  obtain ⟨du, dv⟩ := d
  obtain ⟨eu, ev⟩ := e
  cases v <;> simp only [fmExtent, Prod.mk.injEq] at * <;> constructor <;> omega

/-- The memory part of the invariant survives a write to a unit of the panel. -/
theorem memOk_write {v : Variant} {m : List Host.Cell} {a : Nat} (b : Byte) (ha : a < fmUnits v)
    (h : memOk v m = true) : memOk v (Memory.write m a b) = true := by
  simp only [memOk, Bool.and_eq_true] at h ⊢
  exact ⟨memory_write_wf a b h.1, memory_write_all b ha h.2⟩

/-- The memory after reset is in canonical form. -/
theorem reset_memory_wf : Memory.wf State.reset.fm = true ∧ Memory.wf State.reset.vis = true := ⟨rfl, rfl⟩

end Sys2Proof.Machine
end

