-- ==== Sys2Proof/Laws/State.lean ====
section
/-! SUPPORT. One lemma per field of State for each named update of it, true by rfl, so that no proof unfolds a record
update (by cases where the update has two). -/

namespace Sys2Proof.Machine

/-! ### emit -/

@[simp] theorem emit_cfg (e : Event) (s : State) : (emit e s).cfg = s.cfg := rfl
@[simp] theorem emit_mode (e : Event) (s : State) : (emit e s).mode = s.mode := rfl
@[simp] theorem emit_haltCause (e : Event) (s : State) : (emit e s).haltCause = s.haltCause := rfl
@[simp] theorem emit_latch (e : Event) (s : State) : (emit e s).latch = s.latch := rfl
@[simp] theorem emit_epd (e : Event) (s : State) : (emit e s).epd = s.epd := rfl
@[simp] theorem emit_goled (e : Event) (s : State) : (emit e s).goled = s.goled := rfl
@[simp] theorem emit_woled (e : Event) (s : State) : (emit e s).woled = s.woled := rfl
@[simp] theorem emit_text (e : Event) (s : State) : (emit e s).text = s.text := rfl
@[simp] theorem emit_tb (e : Event) (s : State) : (emit e s).tb = s.tb := rfl
@[simp] theorem emit_sr (e : Event) (s : State) : (emit e s).sr = s.sr := rfl
@[simp] theorem emit_pins (e : Event) (s : State) : (emit e s).pins = s.pins := rfl
@[simp] theorem emit_pos (e : Event) (s : State) : (emit e s).pos = s.pos := rfl
@[simp] theorem emit_send (e : Event) (s : State) : (emit e s).send = s.send := rfl
@[simp] theorem emit_bus (e : Event) (s : State) : (emit e s).bus = s.bus := rfl
@[simp] theorem emit_fm (e : Event) (s : State) : (emit e s).fm = s.fm := rfl
@[simp] theorem emit_vis (e : Event) (s : State) : (emit e s).vis = s.vis := rfl
@[simp] theorem emit_trace (e : Event) (s : State) : (emit e s).trace = s.trace ++ [e] := rfl
@[simp] theorem emit_src (e : Event) (s : State) : (emit e s).src = s.src := rfl
@[simp] theorem emit_ports (e : Event) (s : State) : (emit e s).ports = s.ports := rfl
@[simp] theorem emit_host (e : Event) (s : State) : (emit e s).host = s.host := rfl
@[simp] theorem emit_busyIn (e : Event) (s : State) : (emit e s).busyIn = s.busyIn := rfl
@[simp] theorem emit_busyReads (e : Event) (s : State) : (emit e s).busyReads = s.busyReads := rfl
@[simp] theorem emit_changed (e : Event) (s : State) : (emit e s).changed = s.changed := rfl
@[simp] theorem emit_oracle (e : Event) (s : State) : (emit e s).oracle = s.oracle := rfl
@[simp] theorem emit_ops (e : Event) (s : State) : (emit e s).ops = s.ops := rfl
@[simp] theorem emit_draws (e : Event) (s : State) : (emit e s).draws = s.draws := rfl

/-! ### raiseFault -/

@[simp] theorem raiseFault_cfg (c : FaultCode) (s : State) : (raiseFault c s).cfg = s.cfg := rfl
@[simp] theorem raiseFault_mode (c : FaultCode) (s : State) : (raiseFault c s).mode = s.mode := rfl
@[simp] theorem raiseFault_haltCause (c : FaultCode) (s : State) : (raiseFault c s).haltCause = s.haltCause := rfl
@[simp] theorem raiseFault_latch (c : FaultCode) (s : State) : (raiseFault c s).latch = s.latch := rfl
@[simp] theorem raiseFault_epd (c : FaultCode) (s : State) : (raiseFault c s).epd = s.epd := rfl
@[simp] theorem raiseFault_goled (c : FaultCode) (s : State) : (raiseFault c s).goled = s.goled := rfl
@[simp] theorem raiseFault_woled (c : FaultCode) (s : State) : (raiseFault c s).woled = s.woled := rfl
@[simp] theorem raiseFault_text (c : FaultCode) (s : State) : (raiseFault c s).text = s.text := rfl
@[simp] theorem raiseFault_tb (c : FaultCode) (s : State) : (raiseFault c s).tb = s.tb := rfl
@[simp] theorem raiseFault_sr (c : FaultCode) (s : State) : (raiseFault c s).sr = s.sr := rfl
@[simp] theorem raiseFault_pins (c : FaultCode) (s : State) : (raiseFault c s).pins = s.pins := rfl
@[simp] theorem raiseFault_pos (c : FaultCode) (s : State) : (raiseFault c s).pos = .raising c := rfl
@[simp] theorem raiseFault_send (c : FaultCode) (s : State) : (raiseFault c s).send = none := rfl
@[simp] theorem raiseFault_bus (c : FaultCode) (s : State) : (raiseFault c s).bus = [] := rfl
@[simp] theorem raiseFault_fm (c : FaultCode) (s : State) : (raiseFault c s).fm = s.fm := rfl
@[simp] theorem raiseFault_vis (c : FaultCode) (s : State) : (raiseFault c s).vis = s.vis := rfl
@[simp] theorem raiseFault_trace (c : FaultCode) (s : State) : (raiseFault c s).trace = s.trace := rfl
@[simp] theorem raiseFault_src (c : FaultCode) (s : State) : (raiseFault c s).src = s.src := rfl
@[simp] theorem raiseFault_ports (c : FaultCode) (s : State) : (raiseFault c s).ports = s.ports := rfl
@[simp] theorem raiseFault_host (c : FaultCode) (s : State) : (raiseFault c s).host = s.host := rfl
@[simp] theorem raiseFault_busyIn (c : FaultCode) (s : State) : (raiseFault c s).busyIn = s.busyIn := rfl
@[simp] theorem raiseFault_busyReads (c : FaultCode) (s : State) : (raiseFault c s).busyReads = s.busyReads := rfl
@[simp] theorem raiseFault_changed (c : FaultCode) (s : State) : (raiseFault c s).changed = s.changed := rfl
@[simp] theorem raiseFault_oracle (c : FaultCode) (s : State) : (raiseFault c s).oracle = s.oracle := rfl
@[simp] theorem raiseFault_ops (c : FaultCode) (s : State) : (raiseFault c s).ops = s.ops := rfl
@[simp] theorem raiseFault_draws (c : FaultCode) (s : State) : (raiseFault c s).draws = s.draws := rfl

/-! ### halt -/

@[simp] theorem halt_cfg (c : FaultCode) (s : State) : (halt c s).cfg = s.cfg := rfl
@[simp] theorem halt_mode (c : FaultCode) (s : State) : (halt c s).mode = .halted := rfl
@[simp] theorem halt_haltCause (c : FaultCode) (s : State) : (halt c s).haltCause = some c := rfl
@[simp] theorem halt_latch (c : FaultCode) (s : State) : (halt c s).latch = s.latch := rfl
@[simp] theorem halt_epd (c : FaultCode) (s : State) : (halt c s).epd = s.epd := rfl
@[simp] theorem halt_goled (c : FaultCode) (s : State) : (halt c s).goled = s.goled := rfl
@[simp] theorem halt_woled (c : FaultCode) (s : State) : (halt c s).woled = s.woled := rfl
@[simp] theorem halt_text (c : FaultCode) (s : State) : (halt c s).text = s.text := rfl
@[simp] theorem halt_tb (c : FaultCode) (s : State) : (halt c s).tb = s.tb := rfl
@[simp] theorem halt_sr (c : FaultCode) (s : State) : (halt c s).sr = s.sr := rfl
@[simp] theorem halt_pins (c : FaultCode) (s : State) : (halt c s).pins = s.pins := rfl
@[simp] theorem halt_pos (c : FaultCode) (s : State) : (halt c s).pos = .idle := rfl
@[simp] theorem halt_send (c : FaultCode) (s : State) : (halt c s).send = none := rfl
@[simp] theorem halt_bus (c : FaultCode) (s : State) : (halt c s).bus = [] := rfl
@[simp] theorem halt_fm (c : FaultCode) (s : State) : (halt c s).fm = s.fm := rfl
@[simp] theorem halt_vis (c : FaultCode) (s : State) : (halt c s).vis = s.vis := rfl
@[simp] theorem halt_trace (c : FaultCode) (s : State) : (halt c s).trace = s.trace ++ [.halt c] := rfl
@[simp] theorem halt_src (c : FaultCode) (s : State) : (halt c s).src = s.src := rfl
@[simp] theorem halt_ports (c : FaultCode) (s : State) : (halt c s).ports = s.ports := rfl
@[simp] theorem halt_host (c : FaultCode) (s : State) : (halt c s).host = s.host := rfl
@[simp] theorem halt_busyIn (c : FaultCode) (s : State) : (halt c s).busyIn = s.busyIn := rfl
@[simp] theorem halt_busyReads (c : FaultCode) (s : State) : (halt c s).busyReads = s.busyReads := rfl
@[simp] theorem halt_changed (c : FaultCode) (s : State) : (halt c s).changed = s.changed := rfl
@[simp] theorem halt_oracle (c : FaultCode) (s : State) : (halt c s).oracle = s.oracle := rfl
@[simp] theorem halt_ops (c : FaultCode) (s : State) : (halt c s).ops = s.ops := rfl
@[simp] theorem halt_draws (c : FaultCode) (s : State) : (halt c s).draws = s.draws := rfl

/-! ### accept -/

@[simp] theorem accept_cfg (r : HostRequest) (s : State) : (accept r s).cfg = s.cfg := rfl
@[simp] theorem accept_mode (r : HostRequest) (s : State) : (accept r s).mode = s.mode := rfl
@[simp] theorem accept_haltCause (r : HostRequest) (s : State) : (accept r s).haltCause = s.haltCause := rfl
@[simp] theorem accept_latch (r : HostRequest) (s : State) : (accept r s).latch = latchOf r.desc := rfl
@[simp] theorem accept_epd (r : HostRequest) (s : State) : (accept r s).epd = s.epd := rfl
@[simp] theorem accept_goled (r : HostRequest) (s : State) : (accept r s).goled = s.goled := rfl
@[simp] theorem accept_woled (r : HostRequest) (s : State) : (accept r s).woled = s.woled := rfl
@[simp] theorem accept_text (r : HostRequest) (s : State) : (accept r s).text = s.text := rfl
@[simp] theorem accept_tb (r : HostRequest) (s : State) : (accept r s).tb = s.tb := rfl
@[simp] theorem accept_sr (r : HostRequest) (s : State) : (accept r s).sr = s.sr := rfl
@[simp] theorem accept_pins (r : HostRequest) (s : State) : (accept r s).pins = s.pins := rfl
@[simp] theorem accept_pos (r : HostRequest) (s : State) : (accept r s).pos = s.pos := rfl
@[simp] theorem accept_send (r : HostRequest) (s : State) : (accept r s).send = s.send := rfl
@[simp] theorem accept_bus (r : HostRequest) (s : State) : (accept r s).bus = s.bus := rfl
@[simp] theorem accept_fm (r : HostRequest) (s : State) : (accept r s).fm = s.fm := rfl
@[simp] theorem accept_vis (r : HostRequest) (s : State) : (accept r s).vis = s.vis := rfl
@[simp] theorem accept_trace (r : HostRequest) (s : State) : (accept r s).trace = s.trace := rfl
@[simp] theorem accept_src (r : HostRequest) (s : State) : (accept r s).src = s.src := rfl
@[simp] theorem accept_ports (r : HostRequest) (s : State) : (accept r s).ports = r.ports := rfl
@[simp] theorem accept_host (r : HostRequest) (s : State) : (accept r s).host = s.host.tail := rfl
@[simp] theorem accept_busyIn (r : HostRequest) (s : State) : (accept r s).busyIn = s.busyIn := rfl
@[simp] theorem accept_busyReads (r : HostRequest) (s : State) : (accept r s).busyReads = s.busyReads := rfl
@[simp] theorem accept_changed (r : HostRequest) (s : State) : (accept r s).changed = s.changed := rfl
@[simp] theorem accept_oracle (r : HostRequest) (s : State) : (accept r s).oracle = s.oracle := rfl
@[simp] theorem accept_ops (r : HostRequest) (s : State) : (accept r s).ops = s.ops := rfl
@[simp] theorem accept_draws (r : HostRequest) (s : State) : (accept r s).draws = s.draws := rfl

/-! ### finishRequest -/

@[simp] theorem finishRequest_cfg (s : State) : (finishRequest s).cfg = s.cfg := rfl
@[simp] theorem finishRequest_mode (s : State) : (finishRequest s).mode = .idle := rfl
@[simp] theorem finishRequest_haltCause (s : State) : (finishRequest s).haltCause = s.haltCause := rfl
@[simp] theorem finishRequest_latch (s : State) : (finishRequest s).latch = s.latch := rfl
@[simp] theorem finishRequest_epd (s : State) : (finishRequest s).epd = s.epd := rfl
@[simp] theorem finishRequest_goled (s : State) : (finishRequest s).goled = s.goled := rfl
@[simp] theorem finishRequest_woled (s : State) : (finishRequest s).woled = s.woled := rfl
@[simp] theorem finishRequest_text (s : State) : (finishRequest s).text = s.text := rfl
@[simp] theorem finishRequest_tb (s : State) : (finishRequest s).tb = s.tb := rfl
@[simp] theorem finishRequest_sr (s : State) : (finishRequest s).sr = s.sr := rfl
@[simp] theorem finishRequest_pins (s : State) : (finishRequest s).pins = s.pins := rfl
@[simp] theorem finishRequest_pos (s : State) : (finishRequest s).pos = .idle := rfl
@[simp] theorem finishRequest_send (s : State) : (finishRequest s).send = s.send := rfl
@[simp] theorem finishRequest_bus (s : State) : (finishRequest s).bus = s.bus := rfl
@[simp] theorem finishRequest_fm (s : State) : (finishRequest s).fm = s.fm := rfl
@[simp] theorem finishRequest_vis (s : State) : (finishRequest s).vis = s.vis := rfl
@[simp] theorem finishRequest_trace (s : State) : (finishRequest s).trace = s.trace := rfl
@[simp] theorem finishRequest_src (s : State) : (finishRequest s).src = s.src := rfl
@[simp] theorem finishRequest_ports (s : State) : (finishRequest s).ports = s.ports := rfl
@[simp] theorem finishRequest_host (s : State) : (finishRequest s).host = s.host := rfl
@[simp] theorem finishRequest_busyIn (s : State) : (finishRequest s).busyIn = s.busyIn := rfl
@[simp] theorem finishRequest_busyReads (s : State) : (finishRequest s).busyReads = s.busyReads := rfl
@[simp] theorem finishRequest_changed (s : State) : (finishRequest s).changed = s.changed := rfl
@[simp] theorem finishRequest_oracle (s : State) : (finishRequest s).oracle = s.oracle := rfl
@[simp] theorem finishRequest_ops (s : State) : (finishRequest s).ops = s.ops := rfl
@[simp] theorem finishRequest_draws (s : State) : (finishRequest s).draws = s.draws := rfl

/-! ### standAt -/

@[simp] theorem standAt_cfg (w : WireWord) (p : Pos) (s : State) : (standAt w p s).cfg = s.cfg := rfl
@[simp] theorem standAt_mode (w : WireWord) (p : Pos) (s : State) : (standAt w p s).mode = s.mode := rfl
@[simp] theorem standAt_haltCause (w : WireWord) (p : Pos) (s : State) : (standAt w p s).haltCause = s.haltCause := rfl
@[simp] theorem standAt_latch (w : WireWord) (p : Pos) (s : State) : (standAt w p s).latch = s.latch := rfl
@[simp] theorem standAt_epd (w : WireWord) (p : Pos) (s : State) : (standAt w p s).epd = s.epd := rfl
@[simp] theorem standAt_goled (w : WireWord) (p : Pos) (s : State) : (standAt w p s).goled = s.goled := rfl
@[simp] theorem standAt_woled (w : WireWord) (p : Pos) (s : State) : (standAt w p s).woled = s.woled := rfl
@[simp] theorem standAt_text (w : WireWord) (p : Pos) (s : State) : (standAt w p s).text = s.text := rfl
@[simp] theorem standAt_tb (w : WireWord) (p : Pos) (s : State) : (standAt w p s).tb = s.tb := rfl
@[simp] theorem standAt_sr (w : WireWord) (p : Pos) (s : State) : (standAt w p s).sr = s.sr := rfl
@[simp] theorem standAt_pins (w : WireWord) (p : Pos) (s : State) : (standAt w p s).pins = s.pins := rfl
@[simp] theorem standAt_pos (w : WireWord) (p : Pos) (s : State) : (standAt w p s).pos = p := rfl
@[simp] theorem standAt_send (w : WireWord) (p : Pos) (s : State) : (standAt w p s).send = some w := rfl
@[simp] theorem standAt_bus (w : WireWord) (p : Pos) (s : State) : (standAt w p s).bus = s.bus := rfl
@[simp] theorem standAt_fm (w : WireWord) (p : Pos) (s : State) : (standAt w p s).fm = s.fm := rfl
@[simp] theorem standAt_vis (w : WireWord) (p : Pos) (s : State) : (standAt w p s).vis = s.vis := rfl
@[simp] theorem standAt_trace (w : WireWord) (p : Pos) (s : State) : (standAt w p s).trace = s.trace := rfl
@[simp] theorem standAt_src (w : WireWord) (p : Pos) (s : State) : (standAt w p s).src = s.src := rfl
@[simp] theorem standAt_ports (w : WireWord) (p : Pos) (s : State) : (standAt w p s).ports = s.ports := rfl
@[simp] theorem standAt_host (w : WireWord) (p : Pos) (s : State) : (standAt w p s).host = s.host := rfl
@[simp] theorem standAt_busyIn (w : WireWord) (p : Pos) (s : State) : (standAt w p s).busyIn = s.busyIn := rfl
@[simp] theorem standAt_busyReads (w : WireWord) (p : Pos) (s : State) : (standAt w p s).busyReads = s.busyReads := rfl
@[simp] theorem standAt_changed (w : WireWord) (p : Pos) (s : State) : (standAt w p s).changed = s.changed := rfl
@[simp] theorem standAt_oracle (w : WireWord) (p : Pos) (s : State) : (standAt w p s).oracle = s.oracle := rfl
@[simp] theorem standAt_ops (w : WireWord) (p : Pos) (s : State) : (standAt w p s).ops = s.ops := rfl
@[simp] theorem standAt_draws (w : WireWord) (p : Pos) (s : State) : (standAt w p s).draws = s.draws := rfl

/-! ### driveDc -/

@[simp] theorem driveDc_cfg (l : DcLevel) (s : State) : (driveDc l s).cfg = s.cfg := rfl
@[simp] theorem driveDc_mode (l : DcLevel) (s : State) : (driveDc l s).mode = s.mode := rfl
@[simp] theorem driveDc_haltCause (l : DcLevel) (s : State) : (driveDc l s).haltCause = s.haltCause := rfl
@[simp] theorem driveDc_latch (l : DcLevel) (s : State) : (driveDc l s).latch = s.latch := rfl
@[simp] theorem driveDc_epd (l : DcLevel) (s : State) : (driveDc l s).epd = s.epd := rfl
@[simp] theorem driveDc_goled (l : DcLevel) (s : State) : (driveDc l s).goled = s.goled := rfl
@[simp] theorem driveDc_woled (l : DcLevel) (s : State) : (driveDc l s).woled = s.woled := rfl
@[simp] theorem driveDc_text (l : DcLevel) (s : State) : (driveDc l s).text = s.text := rfl
@[simp] theorem driveDc_tb (l : DcLevel) (s : State) : (driveDc l s).tb = s.tb := rfl
@[simp] theorem driveDc_sr (l : DcLevel) (s : State) : (driveDc l s).sr = s.sr := rfl
@[simp] theorem driveDc_pins (l : DcLevel) (s : State) : (driveDc l s).pins = { s.pins with dc := l } := rfl
@[simp] theorem driveDc_pos (l : DcLevel) (s : State) : (driveDc l s).pos = s.pos := rfl
@[simp] theorem driveDc_send (l : DcLevel) (s : State) : (driveDc l s).send = s.send := rfl
@[simp] theorem driveDc_bus (l : DcLevel) (s : State) : (driveDc l s).bus = s.bus := rfl
@[simp] theorem driveDc_fm (l : DcLevel) (s : State) : (driveDc l s).fm = s.fm := rfl
@[simp] theorem driveDc_vis (l : DcLevel) (s : State) : (driveDc l s).vis = s.vis := rfl
@[simp] theorem driveDc_trace (l : DcLevel) (s : State) : (driveDc l s).trace = s.trace ++ [.dc l] := rfl
@[simp] theorem driveDc_src (l : DcLevel) (s : State) : (driveDc l s).src = s.src := rfl
@[simp] theorem driveDc_ports (l : DcLevel) (s : State) : (driveDc l s).ports = s.ports := rfl
@[simp] theorem driveDc_host (l : DcLevel) (s : State) : (driveDc l s).host = s.host := rfl
@[simp] theorem driveDc_busyIn (l : DcLevel) (s : State) : (driveDc l s).busyIn = s.busyIn := rfl
@[simp] theorem driveDc_busyReads (l : DcLevel) (s : State) : (driveDc l s).busyReads = s.busyReads := rfl
@[simp] theorem driveDc_changed (l : DcLevel) (s : State) : (driveDc l s).changed = s.changed := rfl
@[simp] theorem driveDc_oracle (l : DcLevel) (s : State) : (driveDc l s).oracle = s.oracle := rfl
@[simp] theorem driveDc_ops (l : DcLevel) (s : State) : (driveDc l s).ops = s.ops := rfl
@[simp] theorem driveDc_draws (l : DcLevel) (s : State) : (driveDc l s).draws = s.draws := rfl

/-! ### driveCs -/

@[simp] theorem driveCs_cfg (l : CsLevel) (s : State) : (driveCs l s).cfg = s.cfg := rfl
@[simp] theorem driveCs_mode (l : CsLevel) (s : State) : (driveCs l s).mode = s.mode := rfl
@[simp] theorem driveCs_haltCause (l : CsLevel) (s : State) : (driveCs l s).haltCause = s.haltCause := rfl
@[simp] theorem driveCs_latch (l : CsLevel) (s : State) : (driveCs l s).latch = s.latch := rfl
@[simp] theorem driveCs_epd (l : CsLevel) (s : State) : (driveCs l s).epd = s.epd := rfl
@[simp] theorem driveCs_goled (l : CsLevel) (s : State) : (driveCs l s).goled = s.goled := rfl
@[simp] theorem driveCs_woled (l : CsLevel) (s : State) : (driveCs l s).woled = s.woled := rfl
@[simp] theorem driveCs_text (l : CsLevel) (s : State) : (driveCs l s).text = s.text := rfl
@[simp] theorem driveCs_tb (l : CsLevel) (s : State) : (driveCs l s).tb = s.tb := rfl
@[simp] theorem driveCs_sr (l : CsLevel) (s : State) : (driveCs l s).sr = s.sr := rfl
@[simp] theorem driveCs_pins (l : CsLevel) (s : State) : (driveCs l s).pins = { s.pins with cs := l } := rfl
@[simp] theorem driveCs_pos (l : CsLevel) (s : State) : (driveCs l s).pos = s.pos := rfl
@[simp] theorem driveCs_send (l : CsLevel) (s : State) : (driveCs l s).send = s.send := rfl
@[simp] theorem driveCs_bus (l : CsLevel) (s : State) : (driveCs l s).bus = s.bus := rfl
@[simp] theorem driveCs_fm (l : CsLevel) (s : State) : (driveCs l s).fm = s.fm := rfl
@[simp] theorem driveCs_vis (l : CsLevel) (s : State) : (driveCs l s).vis = s.vis := rfl
@[simp] theorem driveCs_trace (l : CsLevel) (s : State) : (driveCs l s).trace = s.trace ++ [.cs l] := rfl
@[simp] theorem driveCs_src (l : CsLevel) (s : State) : (driveCs l s).src = s.src := rfl
@[simp] theorem driveCs_ports (l : CsLevel) (s : State) : (driveCs l s).ports = s.ports := rfl
@[simp] theorem driveCs_host (l : CsLevel) (s : State) : (driveCs l s).host = s.host := rfl
@[simp] theorem driveCs_busyIn (l : CsLevel) (s : State) : (driveCs l s).busyIn = s.busyIn := rfl
@[simp] theorem driveCs_busyReads (l : CsLevel) (s : State) : (driveCs l s).busyReads = s.busyReads := rfl
@[simp] theorem driveCs_changed (l : CsLevel) (s : State) : (driveCs l s).changed = s.changed := rfl
@[simp] theorem driveCs_oracle (l : CsLevel) (s : State) : (driveCs l s).oracle = s.oracle := rfl
@[simp] theorem driveCs_ops (l : CsLevel) (s : State) : (driveCs l s).ops = s.ops := rfl
@[simp] theorem driveCs_draws (l : CsLevel) (s : State) : (driveCs l s).draws = s.draws := rfl

/-! ### driveRst -/

@[simp] theorem driveRst_cfg (l : Level) (s : State) : (driveRst l s).cfg = s.cfg := rfl
@[simp] theorem driveRst_mode (l : Level) (s : State) : (driveRst l s).mode = s.mode := rfl
@[simp] theorem driveRst_haltCause (l : Level) (s : State) : (driveRst l s).haltCause = s.haltCause := rfl
@[simp] theorem driveRst_latch (l : Level) (s : State) : (driveRst l s).latch = s.latch := rfl
@[simp] theorem driveRst_epd (l : Level) (s : State) : (driveRst l s).epd = s.epd := rfl
@[simp] theorem driveRst_goled (l : Level) (s : State) : (driveRst l s).goled = s.goled := rfl
@[simp] theorem driveRst_woled (l : Level) (s : State) : (driveRst l s).woled = s.woled := rfl
@[simp] theorem driveRst_text (l : Level) (s : State) : (driveRst l s).text = s.text := rfl
@[simp] theorem driveRst_tb (l : Level) (s : State) : (driveRst l s).tb = s.tb := rfl
@[simp] theorem driveRst_sr (l : Level) (s : State) : (driveRst l s).sr = s.sr := rfl
@[simp] theorem driveRst_pins (l : Level) (s : State) : (driveRst l s).pins = { s.pins with rst := l } := rfl
@[simp] theorem driveRst_pos (l : Level) (s : State) : (driveRst l s).pos = s.pos := rfl
@[simp] theorem driveRst_send (l : Level) (s : State) : (driveRst l s).send = s.send := rfl
@[simp] theorem driveRst_bus (l : Level) (s : State) : (driveRst l s).bus = s.bus := rfl
@[simp] theorem driveRst_fm (l : Level) (s : State) : (driveRst l s).fm = s.fm := rfl
@[simp] theorem driveRst_vis (l : Level) (s : State) : (driveRst l s).vis = s.vis := rfl
@[simp] theorem driveRst_trace (l : Level) (s : State) : (driveRst l s).trace = s.trace ++ [.setRst l] := rfl
@[simp] theorem driveRst_src (l : Level) (s : State) : (driveRst l s).src = s.src := rfl
@[simp] theorem driveRst_ports (l : Level) (s : State) : (driveRst l s).ports = s.ports := rfl
@[simp] theorem driveRst_host (l : Level) (s : State) : (driveRst l s).host = s.host := rfl
@[simp] theorem driveRst_busyIn (l : Level) (s : State) : (driveRst l s).busyIn = s.busyIn := rfl
@[simp] theorem driveRst_busyReads (l : Level) (s : State) : (driveRst l s).busyReads = s.busyReads := rfl
@[simp] theorem driveRst_changed (l : Level) (s : State) : (driveRst l s).changed = s.changed := rfl
@[simp] theorem driveRst_oracle (l : Level) (s : State) : (driveRst l s).oracle = s.oracle := rfl
@[simp] theorem driveRst_ops (l : Level) (s : State) : (driveRst l s).ops = s.ops := rfl
@[simp] theorem driveRst_draws (l : Level) (s : State) : (driveRst l s).draws = s.draws := rfl

/-! ### takeFault: every field but MODE, HALT_CAUSE, the position and the trace, which its cases say -/

@[simp] theorem takeFault_cfg (c : FaultCode) (s : State) : (takeFault c s).cfg = s.cfg := by
  unfold takeFault; split <;> rfl
@[simp] theorem takeFault_latch (c : FaultCode) (s : State) : (takeFault c s).latch = s.latch := by
  unfold takeFault; split <;> rfl
@[simp] theorem takeFault_epd (c : FaultCode) (s : State) : (takeFault c s).epd = s.epd := by
  unfold takeFault; split <;> rfl
@[simp] theorem takeFault_goled (c : FaultCode) (s : State) : (takeFault c s).goled = s.goled := by
  unfold takeFault; split <;> rfl
@[simp] theorem takeFault_woled (c : FaultCode) (s : State) : (takeFault c s).woled = s.woled := by
  unfold takeFault; split <;> rfl
@[simp] theorem takeFault_text (c : FaultCode) (s : State) : (takeFault c s).text = s.text := by
  unfold takeFault; split <;> rfl
@[simp] theorem takeFault_tb (c : FaultCode) (s : State) : (takeFault c s).tb = s.tb := by
  unfold takeFault; split <;> rfl
@[simp] theorem takeFault_sr (c : FaultCode) (s : State) : (takeFault c s).sr = s.sr := by
  unfold takeFault; split <;> rfl
@[simp] theorem takeFault_pins (c : FaultCode) (s : State) : (takeFault c s).pins = s.pins := by
  unfold takeFault; split <;> rfl
@[simp] theorem takeFault_send (c : FaultCode) (s : State) : (takeFault c s).send = none := by
  unfold takeFault; split <;> rfl
@[simp] theorem takeFault_bus (c : FaultCode) (s : State) : (takeFault c s).bus = [] := by
  unfold takeFault; split <;> rfl
@[simp] theorem takeFault_fm (c : FaultCode) (s : State) : (takeFault c s).fm = s.fm := by
  unfold takeFault; split <;> rfl
@[simp] theorem takeFault_vis (c : FaultCode) (s : State) : (takeFault c s).vis = s.vis := by
  unfold takeFault; split <;> rfl
@[simp] theorem takeFault_src (c : FaultCode) (s : State) : (takeFault c s).src = s.src := by
  unfold takeFault; split <;> rfl
@[simp] theorem takeFault_ports (c : FaultCode) (s : State) : (takeFault c s).ports = s.ports := by
  unfold takeFault; split <;> rfl
@[simp] theorem takeFault_host (c : FaultCode) (s : State) : (takeFault c s).host = s.host := by
  unfold takeFault; split <;> rfl
@[simp] theorem takeFault_busyIn (c : FaultCode) (s : State) : (takeFault c s).busyIn = s.busyIn := by
  unfold takeFault; split <;> rfl
@[simp] theorem takeFault_busyReads (c : FaultCode) (s : State) : (takeFault c s).busyReads = s.busyReads := by
  unfold takeFault; split <;> rfl
@[simp] theorem takeFault_changed (c : FaultCode) (s : State) : (takeFault c s).changed = s.changed := by
  unfold takeFault; split <;> rfl
@[simp] theorem takeFault_oracle (c : FaultCode) (s : State) : (takeFault c s).oracle = s.oracle := by
  unfold takeFault; split <;> rfl
@[simp] theorem takeFault_ops (c : FaultCode) (s : State) : (takeFault c s).ops = s.ops := by
  unfold takeFault; split <;> rfl
@[simp] theorem takeFault_draws (c : FaultCode) (s : State) : (takeFault c s).draws = s.draws := by
  unfold takeFault; split <;> rfl

/-! ### hostRead and pixRead: every field but the schedule of changed inputs and the draws is kept -/

@[simp] theorem hostRead_cfg {α : Type} (v : α) (k : Byte → α) (s : State) : (hostRead v k s).2.cfg = s.cfg := by
  unfold hostRead; split <;> rfl
@[simp] theorem hostRead_mode {α : Type} (v : α) (k : Byte → α) (s : State) : (hostRead v k s).2.mode = s.mode := by
  unfold hostRead; split <;> rfl
@[simp] theorem hostRead_haltCause {α : Type} (v : α) (k : Byte → α) (s : State) : (hostRead v k s).2.haltCause = s.haltCause := by
  unfold hostRead; split <;> rfl
@[simp] theorem hostRead_latch {α : Type} (v : α) (k : Byte → α) (s : State) : (hostRead v k s).2.latch = s.latch := by
  unfold hostRead; split <;> rfl
@[simp] theorem hostRead_epd {α : Type} (v : α) (k : Byte → α) (s : State) : (hostRead v k s).2.epd = s.epd := by
  unfold hostRead; split <;> rfl
@[simp] theorem hostRead_goled {α : Type} (v : α) (k : Byte → α) (s : State) : (hostRead v k s).2.goled = s.goled := by
  unfold hostRead; split <;> rfl
@[simp] theorem hostRead_woled {α : Type} (v : α) (k : Byte → α) (s : State) : (hostRead v k s).2.woled = s.woled := by
  unfold hostRead; split <;> rfl
@[simp] theorem hostRead_text {α : Type} (v : α) (k : Byte → α) (s : State) : (hostRead v k s).2.text = s.text := by
  unfold hostRead; split <;> rfl
@[simp] theorem hostRead_tb {α : Type} (v : α) (k : Byte → α) (s : State) : (hostRead v k s).2.tb = s.tb := by
  unfold hostRead; split <;> rfl
@[simp] theorem hostRead_sr {α : Type} (v : α) (k : Byte → α) (s : State) : (hostRead v k s).2.sr = s.sr := by
  unfold hostRead; split <;> rfl
@[simp] theorem hostRead_pins {α : Type} (v : α) (k : Byte → α) (s : State) : (hostRead v k s).2.pins = s.pins := by
  unfold hostRead; split <;> rfl
@[simp] theorem hostRead_pos {α : Type} (v : α) (k : Byte → α) (s : State) : (hostRead v k s).2.pos = s.pos := by
  unfold hostRead; split <;> rfl
@[simp] theorem hostRead_send {α : Type} (v : α) (k : Byte → α) (s : State) : (hostRead v k s).2.send = s.send := by
  unfold hostRead; split <;> rfl
@[simp] theorem hostRead_bus {α : Type} (v : α) (k : Byte → α) (s : State) : (hostRead v k s).2.bus = s.bus := by
  unfold hostRead; split <;> rfl
@[simp] theorem hostRead_fm {α : Type} (v : α) (k : Byte → α) (s : State) : (hostRead v k s).2.fm = s.fm := by
  unfold hostRead; split <;> rfl
@[simp] theorem hostRead_vis {α : Type} (v : α) (k : Byte → α) (s : State) : (hostRead v k s).2.vis = s.vis := by
  unfold hostRead; split <;> rfl
@[simp] theorem hostRead_trace {α : Type} (v : α) (k : Byte → α) (s : State) : (hostRead v k s).2.trace = s.trace := by
  unfold hostRead; split <;> rfl
@[simp] theorem hostRead_src {α : Type} (v : α) (k : Byte → α) (s : State) : (hostRead v k s).2.src = s.src := by
  unfold hostRead; split <;> rfl
@[simp] theorem hostRead_ports {α : Type} (v : α) (k : Byte → α) (s : State) : (hostRead v k s).2.ports = s.ports := by
  unfold hostRead; split <;> rfl
@[simp] theorem hostRead_host {α : Type} (v : α) (k : Byte → α) (s : State) : (hostRead v k s).2.host = s.host := by
  unfold hostRead; split <;> rfl
@[simp] theorem hostRead_busyIn {α : Type} (v : α) (k : Byte → α) (s : State) : (hostRead v k s).2.busyIn = s.busyIn := by
  unfold hostRead; split <;> rfl
@[simp] theorem hostRead_busyReads {α : Type} (v : α) (k : Byte → α) (s : State) : (hostRead v k s).2.busyReads = s.busyReads := by
  unfold hostRead; split <;> rfl
@[simp] theorem hostRead_oracle {α : Type} (v : α) (k : Byte → α) (s : State) : (hostRead v k s).2.oracle = s.oracle := by
  unfold hostRead; split <;> rfl
@[simp] theorem hostRead_ops {α : Type} (v : α) (k : Byte → α) (s : State) : (hostRead v k s).2.ops = s.ops := by
  unfold hostRead; split <;> rfl
@[simp] theorem pixRead_cfg (c : Color) (s : State) : (pixRead c s).2.cfg = s.cfg := by
  unfold pixRead; split <;> simp
@[simp] theorem pixRead_mode (c : Color) (s : State) : (pixRead c s).2.mode = s.mode := by
  unfold pixRead; split <;> simp
@[simp] theorem pixRead_haltCause (c : Color) (s : State) : (pixRead c s).2.haltCause = s.haltCause := by
  unfold pixRead; split <;> simp
@[simp] theorem pixRead_latch (c : Color) (s : State) : (pixRead c s).2.latch = s.latch := by
  unfold pixRead; split <;> simp
@[simp] theorem pixRead_epd (c : Color) (s : State) : (pixRead c s).2.epd = s.epd := by
  unfold pixRead; split <;> simp
@[simp] theorem pixRead_goled (c : Color) (s : State) : (pixRead c s).2.goled = s.goled := by
  unfold pixRead; split <;> simp
@[simp] theorem pixRead_woled (c : Color) (s : State) : (pixRead c s).2.woled = s.woled := by
  unfold pixRead; split <;> simp
@[simp] theorem pixRead_text (c : Color) (s : State) : (pixRead c s).2.text = s.text := by
  unfold pixRead; split <;> simp
@[simp] theorem pixRead_tb (c : Color) (s : State) : (pixRead c s).2.tb = s.tb := by
  unfold pixRead; split <;> simp
@[simp] theorem pixRead_sr (c : Color) (s : State) : (pixRead c s).2.sr = s.sr := by
  unfold pixRead; split <;> simp
@[simp] theorem pixRead_pins (c : Color) (s : State) : (pixRead c s).2.pins = s.pins := by
  unfold pixRead; split <;> simp
@[simp] theorem pixRead_pos (c : Color) (s : State) : (pixRead c s).2.pos = s.pos := by
  unfold pixRead; split <;> simp
@[simp] theorem pixRead_send (c : Color) (s : State) : (pixRead c s).2.send = s.send := by
  unfold pixRead; split <;> simp
@[simp] theorem pixRead_bus (c : Color) (s : State) : (pixRead c s).2.bus = s.bus := by
  unfold pixRead; split <;> simp
@[simp] theorem pixRead_fm (c : Color) (s : State) : (pixRead c s).2.fm = s.fm := by
  unfold pixRead; split <;> simp
@[simp] theorem pixRead_vis (c : Color) (s : State) : (pixRead c s).2.vis = s.vis := by
  unfold pixRead; split <;> simp
@[simp] theorem pixRead_trace (c : Color) (s : State) : (pixRead c s).2.trace = s.trace := by
  unfold pixRead; split <;> simp
@[simp] theorem pixRead_src (c : Color) (s : State) : (pixRead c s).2.src = s.src := by
  unfold pixRead; split <;> simp
@[simp] theorem pixRead_ports (c : Color) (s : State) : (pixRead c s).2.ports = s.ports := by
  unfold pixRead; split <;> simp
@[simp] theorem pixRead_host (c : Color) (s : State) : (pixRead c s).2.host = s.host := by
  unfold pixRead; split <;> simp
@[simp] theorem pixRead_busyIn (c : Color) (s : State) : (pixRead c s).2.busyIn = s.busyIn := by
  unfold pixRead; split <;> simp
@[simp] theorem pixRead_busyReads (c : Color) (s : State) : (pixRead c s).2.busyReads = s.busyReads := by
  unfold pixRead; split <;> simp
@[simp] theorem pixRead_oracle (c : Color) (s : State) : (pixRead c s).2.oracle = s.oracle := by
  unfold pixRead; split <;> simp
@[simp] theorem pixRead_ops (c : Color) (s : State) : (pixRead c s).2.ops = s.ops := by
  unfold pixRead; split <;> simp

/-! ### strRead and glyphRead: the same -/

@[simp] theorem strRead_cfg (s : State) : (strRead s).2.cfg = s.cfg := by
  unfold strRead; split <;> simp
@[simp] theorem strRead_mode (s : State) : (strRead s).2.mode = s.mode := by
  unfold strRead; split <;> simp
@[simp] theorem strRead_haltCause (s : State) : (strRead s).2.haltCause = s.haltCause := by
  unfold strRead; split <;> simp
@[simp] theorem strRead_latch (s : State) : (strRead s).2.latch = s.latch := by
  unfold strRead; split <;> simp
@[simp] theorem strRead_epd (s : State) : (strRead s).2.epd = s.epd := by
  unfold strRead; split <;> simp
@[simp] theorem strRead_goled (s : State) : (strRead s).2.goled = s.goled := by
  unfold strRead; split <;> simp
@[simp] theorem strRead_woled (s : State) : (strRead s).2.woled = s.woled := by
  unfold strRead; split <;> simp
@[simp] theorem strRead_text (s : State) : (strRead s).2.text = s.text := by
  unfold strRead; split <;> simp
@[simp] theorem strRead_tb (s : State) : (strRead s).2.tb = s.tb := by
  unfold strRead; split <;> simp
@[simp] theorem strRead_sr (s : State) : (strRead s).2.sr = s.sr := by
  unfold strRead; split <;> simp
@[simp] theorem strRead_pins (s : State) : (strRead s).2.pins = s.pins := by
  unfold strRead; split <;> simp
@[simp] theorem strRead_pos (s : State) : (strRead s).2.pos = s.pos := by
  unfold strRead; split <;> simp
@[simp] theorem strRead_send (s : State) : (strRead s).2.send = s.send := by
  unfold strRead; split <;> simp
@[simp] theorem strRead_bus (s : State) : (strRead s).2.bus = s.bus := by
  unfold strRead; split <;> simp
@[simp] theorem strRead_fm (s : State) : (strRead s).2.fm = s.fm := by
  unfold strRead; split <;> simp
@[simp] theorem strRead_vis (s : State) : (strRead s).2.vis = s.vis := by
  unfold strRead; split <;> simp
@[simp] theorem strRead_trace (s : State) : (strRead s).2.trace = s.trace := by
  unfold strRead; split <;> simp
@[simp] theorem strRead_src (s : State) : (strRead s).2.src = s.src := by
  unfold strRead; split <;> simp
@[simp] theorem strRead_ports (s : State) : (strRead s).2.ports = s.ports := by
  unfold strRead; split <;> simp
@[simp] theorem strRead_host (s : State) : (strRead s).2.host = s.host := by
  unfold strRead; split <;> simp
@[simp] theorem strRead_busyIn (s : State) : (strRead s).2.busyIn = s.busyIn := by
  unfold strRead; split <;> simp
@[simp] theorem strRead_busyReads (s : State) : (strRead s).2.busyReads = s.busyReads := by
  unfold strRead; split <;> simp
@[simp] theorem strRead_oracle (s : State) : (strRead s).2.oracle = s.oracle := by
  unfold strRead; split <;> simp
@[simp] theorem strRead_ops (s : State) : (strRead s).2.ops = s.ops := by
  unfold strRead; split <;> simp
@[simp] theorem glyphRead_cfg (s : State) : (glyphRead s).2.cfg = s.cfg := by
  simp [glyphRead]
@[simp] theorem glyphRead_mode (s : State) : (glyphRead s).2.mode = s.mode := by
  simp [glyphRead]
@[simp] theorem glyphRead_haltCause (s : State) : (glyphRead s).2.haltCause = s.haltCause := by
  simp [glyphRead]
@[simp] theorem glyphRead_latch (s : State) : (glyphRead s).2.latch = s.latch := by
  simp [glyphRead]
@[simp] theorem glyphRead_epd (s : State) : (glyphRead s).2.epd = s.epd := by
  simp [glyphRead]
@[simp] theorem glyphRead_goled (s : State) : (glyphRead s).2.goled = s.goled := by
  simp [glyphRead]
@[simp] theorem glyphRead_woled (s : State) : (glyphRead s).2.woled = s.woled := by
  simp [glyphRead]
@[simp] theorem glyphRead_text (s : State) : (glyphRead s).2.text = s.text := by
  simp [glyphRead]
@[simp] theorem glyphRead_tb (s : State) : (glyphRead s).2.tb = s.tb := by
  simp [glyphRead]
@[simp] theorem glyphRead_sr (s : State) : (glyphRead s).2.sr = s.sr := by
  simp [glyphRead]
@[simp] theorem glyphRead_pins (s : State) : (glyphRead s).2.pins = s.pins := by
  simp [glyphRead]
@[simp] theorem glyphRead_pos (s : State) : (glyphRead s).2.pos = s.pos := by
  simp [glyphRead]
@[simp] theorem glyphRead_send (s : State) : (glyphRead s).2.send = s.send := by
  simp [glyphRead]
@[simp] theorem glyphRead_bus (s : State) : (glyphRead s).2.bus = s.bus := by
  simp [glyphRead]
@[simp] theorem glyphRead_fm (s : State) : (glyphRead s).2.fm = s.fm := by
  simp [glyphRead]
@[simp] theorem glyphRead_vis (s : State) : (glyphRead s).2.vis = s.vis := by
  simp [glyphRead]
@[simp] theorem glyphRead_trace (s : State) : (glyphRead s).2.trace = s.trace := by
  simp [glyphRead]
@[simp] theorem glyphRead_src (s : State) : (glyphRead s).2.src = s.src := by
  simp [glyphRead]
@[simp] theorem glyphRead_ports (s : State) : (glyphRead s).2.ports = s.ports := by
  simp [glyphRead]
@[simp] theorem glyphRead_host (s : State) : (glyphRead s).2.host = s.host := by
  simp [glyphRead]
@[simp] theorem glyphRead_busyIn (s : State) : (glyphRead s).2.busyIn = s.busyIn := by
  simp [glyphRead]
@[simp] theorem glyphRead_busyReads (s : State) : (glyphRead s).2.busyReads = s.busyReads := by
  simp [glyphRead]
@[simp] theorem glyphRead_oracle (s : State) : (glyphRead s).2.oracle = s.oracle := by
  simp [glyphRead]
@[simp] theorem glyphRead_ops (s : State) : (glyphRead s).2.ops = s.ops := by
  simp [glyphRead]

/-! ### busyNext and sampleBusy: every field but the busy input's own (and the trace) is kept -/

@[simp] theorem busyNext_cfg (s : State) : (busyNext s).cfg = s.cfg := by
  unfold busyNext; cases s.busyIn <;> rfl
@[simp] theorem busyNext_mode (s : State) : (busyNext s).mode = s.mode := by
  unfold busyNext; cases s.busyIn <;> rfl
@[simp] theorem busyNext_haltCause (s : State) : (busyNext s).haltCause = s.haltCause := by
  unfold busyNext; cases s.busyIn <;> rfl
@[simp] theorem busyNext_latch (s : State) : (busyNext s).latch = s.latch := by
  unfold busyNext; cases s.busyIn <;> rfl
@[simp] theorem busyNext_epd (s : State) : (busyNext s).epd = s.epd := by
  unfold busyNext; cases s.busyIn <;> rfl
@[simp] theorem busyNext_goled (s : State) : (busyNext s).goled = s.goled := by
  unfold busyNext; cases s.busyIn <;> rfl
@[simp] theorem busyNext_woled (s : State) : (busyNext s).woled = s.woled := by
  unfold busyNext; cases s.busyIn <;> rfl
@[simp] theorem busyNext_text (s : State) : (busyNext s).text = s.text := by
  unfold busyNext; cases s.busyIn <;> rfl
@[simp] theorem busyNext_tb (s : State) : (busyNext s).tb = s.tb := by
  unfold busyNext; cases s.busyIn <;> rfl
@[simp] theorem busyNext_sr (s : State) : (busyNext s).sr = s.sr := by
  unfold busyNext; cases s.busyIn <;> rfl
@[simp] theorem busyNext_pins (s : State) : (busyNext s).pins = s.pins := by
  unfold busyNext; cases s.busyIn <;> rfl
@[simp] theorem busyNext_pos (s : State) : (busyNext s).pos = s.pos := by
  unfold busyNext; cases s.busyIn <;> rfl
@[simp] theorem busyNext_send (s : State) : (busyNext s).send = s.send := by
  unfold busyNext; cases s.busyIn <;> rfl
@[simp] theorem busyNext_bus (s : State) : (busyNext s).bus = s.bus := by
  unfold busyNext; cases s.busyIn <;> rfl
@[simp] theorem busyNext_fm (s : State) : (busyNext s).fm = s.fm := by
  unfold busyNext; cases s.busyIn <;> rfl
@[simp] theorem busyNext_vis (s : State) : (busyNext s).vis = s.vis := by
  unfold busyNext; cases s.busyIn <;> rfl
@[simp] theorem busyNext_trace (s : State) : (busyNext s).trace = s.trace := by
  unfold busyNext; cases s.busyIn <;> rfl
@[simp] theorem busyNext_src (s : State) : (busyNext s).src = s.src := by
  unfold busyNext; cases s.busyIn <;> rfl
@[simp] theorem busyNext_ports (s : State) : (busyNext s).ports = s.ports := by
  unfold busyNext; cases s.busyIn <;> rfl
@[simp] theorem busyNext_host (s : State) : (busyNext s).host = s.host := by
  unfold busyNext; cases s.busyIn <;> rfl
@[simp] theorem busyNext_changed (s : State) : (busyNext s).changed = s.changed := by
  unfold busyNext; cases s.busyIn <;> rfl
@[simp] theorem busyNext_oracle (s : State) : (busyNext s).oracle = s.oracle := by
  unfold busyNext; cases s.busyIn <;> rfl
@[simp] theorem busyNext_ops (s : State) : (busyNext s).ops = s.ops := by
  unfold busyNext; cases s.busyIn <;> rfl
@[simp] theorem busyNext_draws (s : State) : (busyNext s).draws = s.draws := by
  unfold busyNext; cases s.busyIn <;> rfl
@[simp] theorem sampleBusy_cfg (s : State) : (sampleBusy s).cfg = s.cfg := by
  simp [sampleBusy]
@[simp] theorem sampleBusy_mode (s : State) : (sampleBusy s).mode = s.mode := by
  simp [sampleBusy]
@[simp] theorem sampleBusy_haltCause (s : State) : (sampleBusy s).haltCause = s.haltCause := by
  simp [sampleBusy]
@[simp] theorem sampleBusy_latch (s : State) : (sampleBusy s).latch = s.latch := by
  simp [sampleBusy]
@[simp] theorem sampleBusy_epd (s : State) : (sampleBusy s).epd = s.epd := by
  simp [sampleBusy]
@[simp] theorem sampleBusy_goled (s : State) : (sampleBusy s).goled = s.goled := by
  simp [sampleBusy]
@[simp] theorem sampleBusy_woled (s : State) : (sampleBusy s).woled = s.woled := by
  simp [sampleBusy]
@[simp] theorem sampleBusy_text (s : State) : (sampleBusy s).text = s.text := by
  simp [sampleBusy]
@[simp] theorem sampleBusy_tb (s : State) : (sampleBusy s).tb = s.tb := by
  simp [sampleBusy]
@[simp] theorem sampleBusy_sr (s : State) : (sampleBusy s).sr = s.sr := by
  simp [sampleBusy]
@[simp] theorem sampleBusy_pins (s : State) : (sampleBusy s).pins = s.pins := by
  simp [sampleBusy]
@[simp] theorem sampleBusy_pos (s : State) : (sampleBusy s).pos = s.pos := by
  simp [sampleBusy]
@[simp] theorem sampleBusy_send (s : State) : (sampleBusy s).send = s.send := by
  simp [sampleBusy]
@[simp] theorem sampleBusy_bus (s : State) : (sampleBusy s).bus = s.bus := by
  simp [sampleBusy]
@[simp] theorem sampleBusy_fm (s : State) : (sampleBusy s).fm = s.fm := by
  simp [sampleBusy]
@[simp] theorem sampleBusy_vis (s : State) : (sampleBusy s).vis = s.vis := by
  simp [sampleBusy]
@[simp] theorem sampleBusy_trace (s : State) : (sampleBusy s).trace = s.trace ++ [.busySample (busyAsserted s)] := by
  simp [sampleBusy]
@[simp] theorem sampleBusy_src (s : State) : (sampleBusy s).src = s.src := by
  simp [sampleBusy]
@[simp] theorem sampleBusy_ports (s : State) : (sampleBusy s).ports = s.ports := by
  simp [sampleBusy]
@[simp] theorem sampleBusy_host (s : State) : (sampleBusy s).host = s.host := by
  simp [sampleBusy]
@[simp] theorem sampleBusy_changed (s : State) : (sampleBusy s).changed = s.changed := by
  simp [sampleBusy]
@[simp] theorem sampleBusy_oracle (s : State) : (sampleBusy s).oracle = s.oracle := by
  simp [sampleBusy]
@[simp] theorem sampleBusy_ops (s : State) : (sampleBusy s).ops = s.ops := by
  simp [sampleBusy]
@[simp] theorem sampleBusy_draws (s : State) : (sampleBusy s).draws = s.draws := by
  simp [sampleBusy]

end Sys2Proof.Machine
end

