-- ==== Sys2Proof/Laws/Ops.lean ====
section
/-! SUPPORT. One lemma per shared operation, saying once everything it can do; proofs cite these instead of unfolding. -/

namespace Sys2Proof.Machine

/-! ### The oracle -/

theorem oracleFails_none {s : State} (h : s.oracle = none) : oracleFails s = none := by
  simp [oracleFails, h]

/-! ### Faults -/

/-- Taking a fault: Diag with Halt next, where it is enabled, and Halt otherwise. -/
theorem takeFault_cases (code : FaultCode) (s : State) :
    (s.cfg.diagEnabled = true ∧ takeFault code s = { emit .diag s with pos := .halting code, send := none, bus := [] }) ∨
    (s.cfg.diagEnabled = false ∧ takeFault code s = halt code s) := by
  unfold takeFault
  cases h : s.cfg.diagEnabled <;> simp

/-- A pin operation either fails, taking its fault with nothing else done, or is counted and goes on. -/
theorem pinOp_cases (s : State) (k : State → State) :
    (∃ u, oracleFails s = some u ∧ pinOp s k = takeFault (pinFault u) s) ∨
    (oracleFails s = none ∧ pinOp s k = k { s with ops := s.ops + 1 }) := by
  unfold pinOp
  cases h : oracleFails s with
  | none => exact .inr ⟨rfl, rfl⟩
  | some u => exact .inl ⟨u, rfl, rfl⟩

/-- A byte transfer either fails with BUS_FAILURE or is counted and goes on. -/
theorem busOp_cases (s : State) (k : State → Host.Outcome State Fault Refusal) :
    (∃ u, oracleFails s = some u ∧ busOp s k = .next (takeFault .busFailure s)) ∨
    (oracleFails s = none ∧ busOp s k = k { s with ops := s.ops + 1 }) := by
  unfold busOp
  cases h : oracleFails s with
  | none => exact .inr ⟨rfl, rfl⟩
  | some u => exact .inl ⟨u, rfl, rfl⟩

theorem pinOp_ok {s : State} (h : oracleFails s = none) (k : State → State) :
    pinOp s k = k { s with ops := s.ops + 1 } := by simp [pinOp, h]

theorem busOp_ok {s : State} (h : oracleFails s = none) (k : State → Host.Outcome State Fault Refusal) :
    busOp s k = k { s with ops := s.ops + 1 } := by simp [busOp, h]

/-! ### Transfers -/

/-- A transfer enters the trace; a pixel byte is stored at its unit too, or there is no such unit. -/
theorem transfer_cases (b : Byte) (d : Option (Int × Int)) (s : State) :
    (d = none ∧ transfer b d s = .next (emit (.xfer b) s)) ∨
    (∃ e a, d = some e ∧ fmAddr s.cfg.variant e = some a ∧
      transfer b d s = .next (emit (.xfer b) { s with fm := Memory.write s.fm a b })) ∨
    (∃ e, d = some e ∧ fmAddr s.cfg.variant e = none ∧ transfer b d s = .fault .noSuchFrameUnit) := by
  cases d with
  | none => exact .inl ⟨rfl, rfl⟩
  | some e =>
    cases h : fmAddr s.cfg.variant e with
    | none => exact .inr (.inr ⟨e, rfl, h, by simp [transfer, h]⟩)
    | some a => exact .inr (.inl ⟨e, a, rfl, h, by simp [transfer, h]⟩)

/-! ### Busy -/

/-- The busy input after a sample: only the input's own fields move. -/
theorem busyNext_cases (s : State) :
    (∃ l rest, s.busyIn = l :: rest ∧ busyNext s = { s with busyIn := rest }) ∨
    (s.busyIn = [] ∧ busyNext s = { s with busyReads := s.busyReads + 1 }) := by
  unfold busyNext
  cases h : s.busyIn with
  | nil => exact .inr ⟨rfl, rfl⟩
  | cons l rest => exact .inl ⟨l, rest, rfl, rfl⟩

/-! ### Settling -/

/-- After an event the sequencer moves on exactly when the bus is free and no command is due. -/
theorem settle_cases (s : State) :
    (s.bus = [] ∧ s.send = none ∧ settle s = resume s) ∨ ((s.bus ≠ [] ∨ s.send ≠ none) ∧ settle s = s) := by
  unfold settle
  cases hb : s.bus <;> cases hs : s.send <;> simp

theorem settle_busy {s : State} {op : BusOp} {rest : List BusOp} (h : s.bus = op :: rest) : settle s = s := by
  simp [settle, h]

theorem settle_free {s : State} (hb : s.bus = []) (hs : s.send = none) : settle s = resume s := by
  simp [settle, hb, hs]

/-! ### Wire commands and requests -/

/-- A wire command: nothing in HALTED, a refusal on another variant, and otherwise its first event. -/
theorem issue_cases (v : Variant) (ops : List BusOp) (s : State) :
    (s.mode = .halted ∧ issue v ops s = .next s) ∨
    (s.mode ≠ .halted ∧ s.cfg.variant ≠ v ∧ issue v ops s = .refused .notInVariant) ∨
    (s.mode ≠ .halted ∧ s.cfg.variant = v ∧
      issue v ops s = driveBus { s with send := none, bus := s.bus ++ ops }) := by
  unfold issue
  by_cases h : s.mode = .halted
  · exact .inl ⟨h, by simp [h]⟩
  · by_cases hv : s.cfg.variant = v
    · exact .inr (.inr ⟨h, hv, by simp [h, hv]⟩)
    · exact .inr (.inl ⟨h, hv, by simp [h, hv]⟩)

/-- A request: it begins, it comes to raising ILLEGAL_STATE or ILLEGAL_ARGUMENT, or it waits. -/
theorem serve_cases (isInit : Bool) (l : Latch) (ok : Bool) (go : State → State) (s : State) :
    (((s.mode = .uninit ∧ isInit = true) ∨ (s.mode = .idle ∧ isInit = false ∧ ok = true)) ∧
      serve isInit l ok go s = .next (go { s with latch := l })) ∨
    (((s.mode = .uninit ∧ isInit = false) ∨ (s.mode = .idle ∧ isInit = true)) ∧
      serve isInit l ok go s = .next (raiseFault .illegalState { s with latch := l })) ∨
    (s.mode = .idle ∧ isInit = false ∧ ok = false ∧
      serve isInit l ok go s = .next (raiseFault .illegalArgument { s with latch := l })) ∨
    (s.mode ≠ .uninit ∧ s.mode ≠ .idle ∧ serve isInit l ok go s = .next s) := by
  unfold serve
  cases hm : s.mode <;> cases isInit <;> cases ok <;> simp

/-! ### Reads -/

/-- One read of an input: its value where the host keeps it as it was, a free draw where it does not. -/
theorem hostRead_cases {α : Type} (v : α) (free : Byte → α) (s : State) :
    (s.changed = [] ∧ hostRead v free s = (v, s)) ∨
    (∃ rest, s.changed = false :: rest ∧ hostRead v free s = (v, { s with changed := rest })) ∨
    (∃ rest, s.changed = true :: rest ∧
      hostRead v free s = (free (Config.freeByte s.draws), { s with changed := rest, draws := s.draws + 1 })) := by
  unfold hostRead
  match s.changed with
  | [] => exact .inl ⟨rfl, rfl⟩
  | false :: rest => exact .inr (.inl ⟨rest, rfl, rfl⟩)
  | true :: rest => exact .inr (.inr ⟨rest, rfl, rfl⟩)

theorem hostRead_stable {α : Type} {v : α} {free : Byte → α} {s : State} (h : s.changed = []) :
    hostRead v free s = (v, s) := by simp [hostRead, h]

theorem pixRead_stable {c : Color} {s : State} (h : s.changed = []) : pixRead c s = (c, s) := by
  unfold pixRead
  split <;> simp [hostRead_stable h]

theorem strRead_stable {b : Byte} {s : State} (h : s.changed = []) (hb : s.ports.str[s.text.i]? = some b) :
    strRead s = (b, s) := by simp [strRead, hb, hostRead_stable h]

theorem glyphRead_stable {s : State} (h : s.changed = []) :
    glyphRead s = (glyphBit s.cfg s.text.ch s.text.gr s.text.gc, s) := hostRead_stable h

/-- A query reads a Color to go on with, or takes ADAPTER_RANGE with nothing else done. -/
theorem query_cases (px py : Int) (s : State) (k : Color → State → State) :
    (∃ c, pix s px py = some c ∧ query px py s k = k (pixRead c s).1 (pixRead c s).2) ∨
    (pix s px py = none ∧ query px py s k = takeFault .adapterRange s) := by
  unfold query
  cases h : pix s px py with
  | none => exact .inr ⟨rfl, rfl⟩
  | some c => exact .inl ⟨c, rfl, rfl⟩

/-- A query of a source the host keeps as it was. -/
theorem query_stable {px py : Int} {s : State} {k : Color → State → State} {c : Color} (h : s.changed = [])
    (hc : pix s px py = some c) : query px py s k = k c s := by
  simp [query, hc, pixRead_stable h]

/-! ### Memory reads of a pixel source -/

/-- The adapter's index is inside the buffer. -/
theorem adapterIndex_lt {win : Window} {len : Nat} {px py : Int} {i : Nat} (h : adapterIndex win len px py = some i) :
    i < len := by
  simp only [adapterIndex, Option.ite_none_left_eq_some, Option.some.injEq] at h
  obtain ⟨-, h2, rfl⟩ := h
  omega

end Sys2Proof.Machine
end

