-- ==== Sys2Proof/Laws/PerInstr.lean ====
section
/-! SUPPORT. The per-instruction families: a statement about each instruction as syntax, one lemma per constructor. -/

namespace Sys2Proof.Laws

/-- The shape 30_encoding R111 and R122 give an instruction's code: a request is 12 bytes with RSV 0 and no data-level
byte; a wire command of EPD is one command-level byte, one of an OLED has no data-level byte; a pixel byte is one
data-level byte and nothing else. -/
def EncodingShape.Statement (i : Instr) : Prop :=
  let c := encode i
  match c.space with
  | .request => c.word.cmd.length = 12 ∧ c.word.cmd[3]? = some 0 ∧ c.word.data = []
  | .epd => c.word.cmd.length = 1 ∨ (c.word.cmd = [] ∧ c.word.data.length = 1)
  | .goled => (c.word.cmd.length = 3 ∧ c.word.data = []) ∨ (c.word.cmd = [] ∧ c.word.data.length = 1)
  | .goledInit => c.word.data = []
  | .woled => (1 ≤ c.word.cmd.length ∧ c.word.cmd.length ≤ 3 ∧ c.word.data = []) ∨
      (c.word.cmd = [] ∧ c.word.data.length = 1)

theorem EncodingShape.init : EncodingShape.Statement .init := by
  simp [EncodingShape.Statement, encode, descriptor]

theorem EncodingShape.setFrameCallback (x y w h : Half) : EncodingShape.Statement (.setFrameCallback x y w h) := by
  simp [EncodingShape.Statement, encode, descriptor]

theorem EncodingShape.setFrameBuffer (x y w h : Half) : EncodingShape.Statement (.setFrameBuffer x y w h) := by
  simp [EncodingShape.Statement, encode, descriptor]

theorem EncodingShape.clearFrame (c : Byte) : EncodingShape.Statement (.clearFrame c) := by
  simp [EncodingShape.Statement, encode, descriptor]

theorem EncodingShape.displayFrame : EncodingShape.Statement .displayFrame := by
  simp [EncodingShape.Statement, encode, descriptor]

theorem EncodingShape.drawText (fg bg : Byte) (x y n : Half) : EncodingShape.Statement (.drawText fg bg x y n) := by
  simp [EncodingShape.Statement, encode, descriptor]

theorem EncodingShape.rdWidth : EncodingShape.Statement .rdWidth := by
  simp [EncodingShape.Statement, encode, descriptor]

theorem EncodingShape.rdHeight : EncodingShape.Statement .rdHeight := by
  simp [EncodingShape.Statement, encode, descriptor]

theorem EncodingShape.rdPpb : EncodingShape.Statement .rdPpb := by
  simp [EncodingShape.Statement, encode, descriptor]

theorem EncodingShape.rdLight : EncodingShape.Statement .rdLight := by
  simp [EncodingShape.Statement, encode, descriptor]

theorem EncodingShape.rdDark : EncodingShape.Statement .rdDark := by
  simp [EncodingShape.Statement, encode, descriptor]

theorem EncodingShape.epdDriverOutputControl (payload : List Byte) : EncodingShape.Statement (.epdDriverOutputControl payload) := by
  simp [EncodingShape.Statement, encode]

theorem EncodingShape.epdDataEntryMode (payload : List Byte) : EncodingShape.Statement (.epdDataEntryMode payload) := by
  simp [EncodingShape.Statement, encode]

theorem EncodingShape.epdSetRamXWindow (payload : List Byte) : EncodingShape.Statement (.epdSetRamXWindow payload) := by
  simp [EncodingShape.Statement, encode]

theorem EncodingShape.epdSetRamYWindow (payload : List Byte) : EncodingShape.Statement (.epdSetRamYWindow payload) := by
  simp [EncodingShape.Statement, encode]

theorem EncodingShape.epdBorder (payload : List Byte) : EncodingShape.Statement (.epdBorder payload) := by
  simp [EncodingShape.Statement, encode]

theorem EncodingShape.epdDisplayUpdateControl (payload : List Byte) : EncodingShape.Statement (.epdDisplayUpdateControl payload) := by
  simp [EncodingShape.Statement, encode]

theorem EncodingShape.epdTemperatureSensor (payload : List Byte) : EncodingShape.Statement (.epdTemperatureSensor payload) := by
  simp [EncodingShape.Statement, encode]

theorem EncodingShape.epdUpdateSequenceSelect (payload : List Byte) : EncodingShape.Statement (.epdUpdateSequenceSelect payload) := by
  simp [EncodingShape.Statement, encode]

theorem EncodingShape.epdActivateUpdate (payload : List Byte) : EncodingShape.Statement (.epdActivateUpdate payload) := by
  simp [EncodingShape.Statement, encode]

theorem EncodingShape.epdWriteRam (payload : List Byte) : EncodingShape.Statement (.epdWriteRam payload) := by
  simp [EncodingShape.Statement, encode]

theorem EncodingShape.epdSetRamXPointer (payload : List Byte) : EncodingShape.Statement (.epdSetRamXPointer payload) := by
  simp [EncodingShape.Statement, encode]

theorem EncodingShape.epdSetRamYPointer (payload : List Byte) : EncodingShape.Statement (.epdSetRamYPointer payload) := by
  simp [EncodingShape.Statement, encode]

theorem EncodingShape.goledSetColumnWindow (first last : Byte) : EncodingShape.Statement (.goledSetColumnWindow first last) := by
  simp [EncodingShape.Statement, encode]

theorem EncodingShape.goledSetRowWindow (first last : Byte) : EncodingShape.Statement (.goledSetRowWindow first last) := by
  simp [EncodingShape.Statement, encode]

theorem EncodingShape.goledInitBlock (bytes : List Byte) : EncodingShape.Statement (.goledInitBlock bytes) := by
  simp [EncodingShape.Statement, encode]

theorem EncodingShape.woledSetAddressingModeHorizontal : EncodingShape.Statement .woledSetAddressingModeHorizontal := by
  simp [EncodingShape.Statement, encode]

theorem EncodingShape.woledFlipVertical : EncodingShape.Statement .woledFlipVertical := by
  simp [EncodingShape.Statement, encode]

theorem EncodingShape.woledFlipHorizontal : EncodingShape.Statement .woledFlipHorizontal := by
  simp [EncodingShape.Statement, encode]

theorem EncodingShape.woledDisplayOn : EncodingShape.Statement .woledDisplayOn := by
  simp [EncodingShape.Statement, encode]

theorem EncodingShape.woledSetColumnWindow (first last : Byte) : EncodingShape.Statement (.woledSetColumnWindow first last) := by
  simp [EncodingShape.Statement, encode]

theorem EncodingShape.woledSetPageWindow (first last : Byte) : EncodingShape.Statement (.woledSetPageWindow first last) := by
  simp [EncodingShape.Statement, encode]

theorem EncodingShape.epdPixelData (b : Byte) : EncodingShape.Statement (.epdPixelData b) := by
  simp [EncodingShape.Statement, encode]

theorem EncodingShape.goledPixelData (b : Byte) : EncodingShape.Statement (.goledPixelData b) := by
  simp [EncodingShape.Statement, encode]

theorem EncodingShape.woledPixelData (b : Byte) : EncodingShape.Statement (.woledPixelData b) := by
  simp [EncodingShape.Statement, encode]

end Sys2Proof.Laws
end

