-- ==== Sys2Proof/Laws/Run.lean ====
section
/-! SUPPORT. Steps and runs: which branch of `step` a state takes, how runs compose, and what a transaction group does
from its first event to its last. -/

namespace Sys2Proof.Machine

/-! ### One step -/

/-- With operations left on the bus, a step is the next of them. -/
theorem step_bus {s : State} (hm : s.mode ≠ .halted) (hb : s.bus ≠ []) : step s = driveBus s := by
  unfold step fetch advance
  rw [if_neg hm]
  cases h : s.bus with
  | nil => exact absurd h hb
  | cons op rest => rfl

/-- Where a request is in progress, with the bus free and nothing due, a step is the event or read at its point. -/
theorem step_point {s : State} (hm : s.mode ≠ .halted) (hb : s.bus = []) (hs : s.send = none) (hp : s.pos ≠ .idle) :
    step s = .next (seqStep s) := by
  have hn : presented s = none := by
    unfold presented
    cases h : s.pos <;> first | rfl | exact absurd h hp
  unfold step fetch advance
  rw [if_neg hm, hb, hs]
  simp only [hn, Option.map_none]

/-- Where the host presents a request the block accepts, a step accepts it and runs it. -/
theorem step_accept {s : State} {r : HostRequest} {rest : List HostRequest} (hm : s.mode = .uninit ∨ s.mode = .idle)
    (hp : s.pos = .idle) (hb : s.bus = []) (hs : s.send = none) (hh : s.host = r :: rest) :
    step s = match decode ⟨.request, ⟨r.desc.toList, []⟩⟩ with
      | .ok i => exec i (accept r s)
      | .error _ => .next (raiseFault .illegalRequest (accept r s)) := by
  have hn : presented s = some r := by
    unfold presented
    rcases hm with hm | hm <;> simp [hp, hm, hh]
  have hl : s.mode ≠ .halted := by rcases hm with hm | hm <;> simp [hm]
  unfold step fetch advance
  rw [if_neg hl, hb, hs]
  simp only [hn, Option.map_some]
  rfl

/-! ### Runs -/

theorem run_zero (s : State) : Sys2Proof.core.run 0 s = .next s := rfl

theorem run_succ {s t : State} (k : Nat) (h : step s = .next t) :
    Sys2Proof.core.run (k + 1) s = Sys2Proof.core.run k t := by
  have h' : Sys2Proof.core.step s = .next t := h
  simp only [Host.Core.run, h']

theorem run_one {s t : State} (h : step s = .next t) : Sys2Proof.core.run 1 s = .next t := by
  rw [show (1 : Nat) = 0 + 1 from rfl, run_succ 0 h, run_zero]

/-- Two runs one after the other. -/
theorem run_add {s t : State} {j : Nat} (k : Nat) (h : Sys2Proof.core.run j s = .next t) :
    Sys2Proof.core.run (j + k) s = Sys2Proof.core.run k t := by
  induction j generalizing s with
  | zero =>
    have hst : s = t := Host.Outcome.next.inj h
    rw [hst, Nat.zero_add]
  | succ j ih =>
    cases hs : step s with
    | next u =>
      rw [run_succ j hs] at h
      rw [show j + 1 + k = (j + k) + 1 by omega, run_succ _ hs]
      exact ih h
    | fault f =>
      have h' : Sys2Proof.core.step s = .fault f := hs
      simp only [Host.Core.run, h', reduceCtorEq] at h
    | refused f =>
      have h' : Sys2Proof.core.step s = .refused f := hs
      simp only [Host.Core.run, h', reduceCtorEq] at h

/-! ### Faults -/

/-- A raised fault runs to its end: its events, one a step, and then HALTED. -/
theorem run_raiseFault (code : FaultCode) {s : State} (hm : s.mode ≠ .halted) :
    Sys2Proof.core.run (haltSteps s.cfg) (raiseFault code s) = .next (halted code s) ∧
      Sys2Proof.core.run (haltSteps s.cfg - 1) (takeFault code s) = .next (halted code s) := by
  have h1 : step (raiseFault code s) = .next (takeFault code s) :=
    (step_point (s := raiseFault code s) (by simpa using hm) (by simp) (by simp) (by simp)).trans (by simp [seqStep, takeFault]; rfl)
  cases hd : s.cfg.diagEnabled with
  | false =>
    have ht : takeFault code s = halted code s := by simp [takeFault, hd, halt, halted, haltEvents]
    simp only [haltSteps, hd]
    rw [ht] at h1 ⊢
    exact ⟨run_one h1, rfl⟩
  | true =>
    have h2 : step (takeFault code s) = .next (halted code s) := by
      rw [step_point (s := takeFault code s) (by simp [takeFault, hd, hm]) (by simp) (by simp) (by simp [takeFault, hd])]
      simp [seqStep, takeFault, hd, halt, halted, haltEvents]
    simp only [haltSteps, hd]
    exact ⟨(run_succ 1 h1).trans (run_one h2), run_one h2⟩

/-! ### Transaction groups -/

/-- What an operation on the bus does to a state when nothing fails; a pixel byte is stored at its unit. -/
def applyOp (op : BusOp) (s : State) : State :=
  match op with
  | .dc l => driveDc l s
  | .cs l => driveCs l s
  | .xfer b none => emit (.xfer b) s
  | .xfer b (some d) =>
    match fmAddr s.cfg.variant d with
    | some a => emit (.xfer b) { s with fm := Memory.write s.fm a b }
    | none => s

/-- The operations of a group, one after another, each counted. -/
def applyOps : List BusOp → State → State
  | [], s => s
  | op :: rest, s => applyOps rest (applyOp op { s with bus := rest, ops := s.ops + 1 })

/-- One event of a group that does not fail, for a unit of the panel. -/
theorem driveBus_ok {s : State} {op : BusOp} {rest : List BusOp} (hb : s.bus = op :: rest) (hq : quiet 1 s)
    (hp : busOnPanel s.cfg.variant [op] = true) :
    driveBus s = .next (settle (applyOp op { s with bus := rest, ops := s.ops + 1 })) := by
  have ho : oracleFails { s with bus := rest } = none := by
    unfold oracleFails
    cases h : s.oracle with
    | none => simp
    | some f =>
      have := hq f h
      simp only [ite_eq_right_iff, reduceCtorEq, imp_false]
      omega
  unfold driveBus
  rw [hb]
  cases op with
  | dc l => simp only [pinOp_ok ho]; rfl
  | cs l => simp only [pinOp_ok ho]; rfl
  | xfer b d =>
    simp only [busOp_ok ho]
    cases d with
    | none => rfl
    | some e =>
      simp only [busOnPanel, List.all_cons, List.all_nil, Bool.and_true] at hp
      obtain ⟨a, ha⟩ := Option.isSome_iff_exists.mp hp
      simp only [applyOp, transfer, ha, settleAfter]

@[simp] theorem applyOp_cfg (op : BusOp) (s : State) : (applyOp op s).cfg = s.cfg := by
  unfold applyOp; split <;> (try rfl); split <;> rfl
@[simp] theorem applyOp_mode (op : BusOp) (s : State) : (applyOp op s).mode = s.mode := by
  unfold applyOp; split <;> (try rfl); split <;> rfl
@[simp] theorem applyOp_bus (op : BusOp) (s : State) : (applyOp op s).bus = s.bus := by
  unfold applyOp; split <;> (try rfl); split <;> rfl
@[simp] theorem applyOp_send (op : BusOp) (s : State) : (applyOp op s).send = s.send := by
  unfold applyOp; split <;> (try rfl); split <;> rfl
@[simp] theorem applyOp_oracle (op : BusOp) (s : State) : (applyOp op s).oracle = s.oracle := by
  unfold applyOp; split <;> (try rfl); split <;> rfl
@[simp] theorem applyOp_ops (op : BusOp) (s : State) : (applyOp op s).ops = s.ops := by
  unfold applyOp; split <;> (try rfl); split <;> rfl

/-- A whole group: as many steps as it has events, and then the sequencer moves on. -/
theorem run_group {s : State} (op : BusOp) (rest : List BusOp) (hm : s.mode ≠ .halted) (hs : s.send = none)
    (hb : s.bus = op :: rest) (hq : quiet (rest.length + 1) s) (hp : busOnPanel s.cfg.variant (op :: rest) = true) :
    Sys2Proof.core.run (rest.length + 1) s = .next (resume (applyOps (op :: rest) s)) := by
  induction rest generalizing s op with
  | nil =>
    refine run_one ((step_bus hm (by simp [hb])).trans ?_)
    rw [driveBus_ok hb hq hp, settle_free (by simp) (by simpa using hs)]
    rfl
  | cons op' rest ih =>
    have hp' : busOnPanel s.cfg.variant [op] = true ∧ busOnPanel s.cfg.variant (op' :: rest) = true := by
      simp only [busOnPanel, List.all_cons, Bool.and_eq_true, List.all_nil, Bool.and_true] at hp ⊢
      exact ⟨hp.1, hp.2⟩
    have hq1 : quiet 1 s := fun f h => by have := hq f h; simp only [List.length_cons] at this; omega
    rw [List.length_cons, run_succ _ ((step_bus hm (by simp [hb])).trans (driveBus_ok hb hq1 hp'.1))]
    rw [settle_busy (op := op') (rest := rest) (by simp)]
    rw [ih op' (by simpa using hm) (by simpa using hs) (by simp) ?_ (by simpa using hp'.2)]
    · rfl
    · intro f h
      simp only [applyOp_oracle] at h
      have := hq f h
      simp only [List.length_cons] at this
      simp only [applyOp_ops]
      omega

/-- A run of command or payload bytes inside a transaction. -/
theorem applyOps_bytes (bytes : List Byte) (op : BusOp) (rest : List BusOp) (s : State) :
    applyOps (bytes.map (fun b => .xfer b none) ++ op :: rest) s =
      applyOps (op :: rest)
        { s with trace := s.trace ++ bytes.map .xfer, ops := s.ops + bytes.length } := by
  induction bytes generalizing s with
  | nil => simp
  | cons b bytes ih =>
    simp only [List.map_cons, List.cons_append, applyOps]
    rw [ih]
    simp only [applyOps, applyOp, emit, List.append_assoc, List.singleton_append, List.length_cons, Nat.add_assoc,
      Nat.add_comm 1]

/-- A transaction of bytes that are no pixel bytes. -/
theorem applyOps_transaction (l : DcLevel) (bytes : List Byte) (rest : List BusOp) (s : State) :
    applyOps (transaction l (bytes.map (fun b => .xfer b none)) ++ rest) s =
      applyOps rest
        { s with
          bus := rest
          trace := s.trace ++ ([.dc l, .cs .assert] ++ bytes.map .xfer ++ [.cs .deassert])
          pins := { s.pins with cs := .deassert, dc := l }
          ops := s.ops + (bytes.length + 3) } := by
  simp only [transaction, List.cons_append, List.nil_append, List.append_assoc, applyOps, applyOp]
  rw [applyOps_bytes]
  simp only [applyOps, applyOp, driveDc, driveCs, emit, List.append_assoc, List.cons_append, List.nil_append]
  congr 2
  omega

/-- The transaction of one pixel byte, for a unit of the panel. -/
theorem applyOps_pixel (b : Byte) (d : Int × Int) {a : Nat} (s : State) (ha : fmAddr s.cfg.variant d = some a) :
    applyOps (sendPixelOps b d) s =
      { s with
        bus := []
        trace := s.trace ++ [.dc .data, .cs .assert, .xfer b, .cs .deassert]
        pins := { s.pins with cs := .deassert, dc := .data }
        fm := Memory.write s.fm a b
        ops := s.ops + 4 } := by
  simp only [sendPixelOps, transaction, List.cons_append, List.nil_append, applyOps, applyOp, driveDc, driveCs, emit, ha,
    List.append_assoc]

/-- A wire command that no operation fails: the step it is run in, then as many steps as it has further events. -/
theorem issue_run {v : Variant} {op : BusOp} {rest : List BusOp} {s : State} (hm : s.mode ≠ .halted)
    (hv : s.cfg.variant = v) (hb : s.bus = []) (hq : quiet (rest.length + 1) s) (hp : busOnPanel v (op :: rest) = true) :
    ∃ t, issue v (op :: rest) s = .next t ∧
      Sys2Proof.core.run rest.length t = .next (resume (applyOps (op :: rest) { s with send := none })) := by
  have hr := run_group (s := { s with send := none, bus := op :: rest }) op rest hm rfl rfl hq (by rw [← hv] at hp; exact hp)
  have hd : issue v (op :: rest) s = step { s with send := none, bus := op :: rest } := by
    rw [step_bus (by exact hm) (by simp)]
    simp [issue, hm, hv, hb]
  rw [hd]
  cases hs : step { s with send := none, bus := op :: rest } with
  | next t =>
    rw [run_succ _ hs] at hr
    exact ⟨t, rfl, hr⟩
  | fault f =>
    have h' : Sys2Proof.core.step { s with send := none, bus := op :: rest } = .fault f := hs
    simp only [Host.Core.run, h', reduceCtorEq] at hr
  | refused f =>
    have h' : Sys2Proof.core.step { s with send := none, bus := op :: rest } = .refused f := hs
    simp only [Host.Core.run, h', reduceCtorEq] at hr

end Sys2Proof.Machine
end

