-- ==== Sys2Proof/Laws/Write.lean ====
section
/-! SUPPORT. Frame writes: what `startWrite` does on each unit, and when a window is degenerate or guarded. -/

namespace Sys2Proof.Machine

/-- On EPD the write raises DEGENERATE or begins. -/
theorem startWrite_epd {s : State} (hv : s.cfg.variant = .epd) :
    startWrite s =
      if refusesDegenerate s.cfg (epdDegenerate (window s) (epdClip (window s) s.epd)) then raiseFault .degenerate s
      else epdBegin (window s) s := by
  unfold startWrite
  simp only [hv]

/-- On GOLED the write is guarded, raises DEGENERATE, or begins. -/
theorem startWrite_goled {s : State} (hv : s.cfg.variant = .goled) :
    startWrite s =
      if goledGuard (window s) then writeDone s
      else if refusesDegenerate s.cfg (goledDegenerate (window s) (goledClip (window s) s.goled)) then
        raiseFault .degenerate s
      else goledBegin (window s) s := by
  unfold startWrite
  simp only [hv]

/-- On WOLED the write raises DEGENERATE or begins. -/
theorem startWrite_woled {s : State} (hv : s.cfg.variant = .woled) :
    startWrite s =
      if refusesDegenerate s.cfg (woledDegenerate (window s) (woledClip (window s) s.woled)) then
        raiseFault .degenerate s
      else woledBegin (window s) s := by
  unfold startWrite
  simp only [hv]

/-- When a clipped EPD window is degenerate (20_memory R83). -/
theorem epdDegenerate_iff (x y w h : Nat) (e : EpdWork) :
    epdDegenerate ⟨x, y, w, h⟩ (epdClip ⟨x, y, w, h⟩ e) = true ↔ w < 8 ∨ h = 0 ∨ 200 ≤ x ∨ 200 ≤ y := by
  simp only [epdDegenerate, epdClip, Bool.or_eq_true, decide_eq_true_eq]
  split_ifs <;> omega

/-- When the GOLED guard returns (42_gray_oled R261). -/
theorem goledGuard_iff (x y w h : Nat) :
    goledGuard ⟨x, y, w, h⟩ = true ↔ 128 ≤ x ∨ 128 < y ∨ w < 2 ∨ h = 0 := by
  simp only [goledGuard, Bool.or_eq_true, decide_eq_true_eq]
  omega

/-- A GOLED window that passes the guard is degenerate only at `y = 128` (42_gray_oled R262). -/
theorem goledDegenerate_iff {x y w h : Nat} (g : GoledWork) (hg : goledGuard ⟨x, y, w, h⟩ = false) :
    goledDegenerate ⟨x, y, w, h⟩ (goledClip ⟨x, y, w, h⟩ g) = true ↔ y = 128 := by
  have hn : ¬ (128 ≤ x ∨ 128 < y ∨ w < 2 ∨ h = 0) := by
    rw [← goledGuard_iff]; simp [hg]
  unfold goledDegenerate
  rw [Bool.or_eq_true, decide_eq_true_iff, decide_eq_true_iff]
  simp only [goledClip]
  omega

/-- When a clipped WOLED window is degenerate (20_memory R83; 43_wide_oled R302). -/
theorem woledDegenerate_iff (x y w h : Nat) (o : WoledWork) :
    woledDegenerate ⟨x, y, w, h⟩ (woledClip ⟨x, y, w, h⟩ o) = true ↔ w = 0 ∨ h < 8 ∨ 128 ≤ x ∨ 64 ≤ y := by
  unfold woledDegenerate
  rw [Bool.or_eq_true, decide_eq_true_iff, decide_eq_true_iff]
  simp only [woledClip]
  omega

/-- `enc8` of a value that fits draws nothing (00_scope R18). -/
theorem enc8_fits {n : Nat} {v : Int} (h0 : 0 ≤ v) (h1 : v ≤ 255) : enc8 n v = (BitVec.ofInt 8 v, n) := by
  simp [enc8, h0, h1]

/-- `enc16` of a value that fits draws nothing (00_scope R18). -/
theorem enc16_fits {n : Nat} {v : Int} (h0 : 0 ≤ v) (h1 : v < 65536) :
    enc16 n v = (BitVec.ofInt 8 v, BitVec.ofInt 8 (v / 256), n) := by
  simp [enc16, h0, h1]

end Sys2Proof.Machine
end

