-- ==== Sys2Proof/Laws/Step.lean ====
section
/-! SUPPORT. Everything a step can do, said once: proofs about every step cite `step_cases` and do not unfold the
sequencer. -/

namespace Sys2Proof.Machine

/-- What the sequencer's moves keep: the parameters, HALT_CAUSE, the pins, both images, the trace, the inputs and the
oracle's count. They never enter HALTED, nor come between the two events of a fault. -/
structure Keeps (s t : State) : Prop where
  cfg : t.cfg = s.cfg
  haltCause : t.haltCause = s.haltCause
  pins : t.pins = s.pins
  fm : t.fm = s.fm
  vis : t.vis = s.vis
  trace : t.trace = s.trace
  ports : t.ports = s.ports
  host : t.host = s.host
  busyIn : t.busyIn = s.busyIn
  busyReads : t.busyReads = s.busyReads
  oracle : t.oracle = s.oracle
  ops : t.ops = s.ops
  live : s.mode ≠ .halted → t.mode ≠ .halted
  halting : isHalting t.pos = true → t.pos = s.pos

theorem Keeps.refl (s : State) : Keeps s s := ⟨rfl, rfl, rfl, rfl, rfl, rfl, rfl, rfl, rfl, rfl, rfl, rfl, id, fun _ => rfl⟩

theorem Keeps.trans {s t u : State} (h : Keeps s t) (k : Keeps t u) : Keeps s u :=
  ⟨k.cfg.trans h.cfg, k.haltCause.trans h.haltCause, k.pins.trans h.pins, k.fm.trans h.fm, k.vis.trans h.vis,
    k.trace.trans h.trace, k.ports.trans h.ports, k.host.trans h.host, k.busyIn.trans h.busyIn,
    k.busyReads.trans h.busyReads, k.oracle.trans h.oracle, k.ops.trans h.ops, fun hm => k.live (h.live hm),
    fun hp => (k.halting hp).trans (h.halting (k.halting hp ▸ hp))⟩

/-! ### The moves -/

theorem finishRequest_keeps (s : State) : Keeps s (finishRequest s) :=
  ⟨rfl, rfl, rfl, rfl, rfl, rfl, rfl, rfl, rfl, rfl, rfl, rfl, fun _ => by simp, nofun⟩

theorem nextChar_keeps (s : State) : Keeps s (nextChar s) := by
  unfold nextChar
  dsimp only
  split
  · exact ⟨rfl, rfl, rfl, rfl, rfl, rfl, rfl, rfl, rfl, rfl, rfl, rfl, id, nofun⟩
  · exact ⟨rfl, rfl, rfl, rfl, rfl, rfl, rfl, rfl, rfl, rfl, rfl, rfl, fun _ => by simp, nofun⟩

theorem writeDone_keeps (s : State) : Keeps s (writeDone s) := by
  unfold writeDone
  split
  · exact nextChar_keeps s
  all_goals exact finishRequest_keeps s

theorem epdBegin_keeps (win : Window) (s : State) : Keeps s (epdBegin win s) :=
  ⟨rfl, rfl, rfl, rfl, rfl, rfl, rfl, rfl, rfl, rfl, rfl, rfl, fun _ => by simp [epdBegin, standAtEpdPair], nofun⟩

theorem goledBegin_keeps (win : Window) (s : State) : Keeps s (goledBegin win s) :=
  ⟨rfl, rfl, rfl, rfl, rfl, rfl, rfl, rfl, rfl, rfl, rfl, rfl, fun _ => by simp [goledBegin, standAtWindow], nofun⟩

theorem woledBegin_keeps (win : Window) (s : State) : Keeps s (woledBegin win s) :=
  ⟨rfl, rfl, rfl, rfl, rfl, rfl, rfl, rfl, rfl, rfl, rfl, rfl, fun _ => by simp [woledBegin, standAtWindow], nofun⟩

theorem epdRowOrEnd_keeps (j : Int) (s : State) : Keeps s (epdRowOrEnd j s) := by
  unfold epdRowOrEnd
  split
  · exact ⟨rfl, rfl, rfl, rfl, rfl, rfl, rfl, rfl, rfl, rfl, rfl, rfl, id, nofun⟩
  · exact writeDone_keeps s

theorem epdGroupOrRow_keeps (g : Int) (s : State) : Keeps s (epdGroupOrRow g s) := by
  unfold epdGroupOrRow
  split
  · exact ⟨rfl, rfl, rfl, rfl, rfl, rfl, rfl, rfl, rfl, rfl, rfl, rfl, id, nofun⟩
  · exact epdRowOrEnd_keeps _ s

theorem goledRowOrEnd_keeps (r : Int) (s : State) : Keeps s (goledRowOrEnd r s) := by
  unfold goledRowOrEnd
  split
  · exact ⟨rfl, rfl, rfl, rfl, rfl, rfl, rfl, rfl, rfl, rfl, rfl, rfl, id, nofun⟩
  · exact writeDone_keeps s

theorem goledNext_keeps (s : State) : Keeps s (goledNext s) := by
  unfold goledNext
  split
  · exact ⟨rfl, rfl, rfl, rfl, rfl, rfl, rfl, rfl, rfl, rfl, rfl, rfl, id, nofun⟩
  · exact goledRowOrEnd_keeps _ s

theorem woledPageOrEnd_keeps (p : Int) (s : State) : Keeps s (woledPageOrEnd p s) := by
  unfold woledPageOrEnd
  split
  · exact ⟨rfl, rfl, rfl, rfl, rfl, rfl, rfl, rfl, rfl, rfl, rfl, rfl, id, nofun⟩
  · exact writeDone_keeps s

theorem woledNext_keeps (s : State) : Keeps s (woledNext s) := by
  unfold woledNext
  split
  · exact ⟨rfl, rfl, rfl, rfl, rfl, rfl, rfl, rfl, rfl, rfl, rfl, rfl, id, nofun⟩
  · exact woledPageOrEnd_keeps _ s

theorem epdInitNext_keeps (rest : List InitAction) (s : State) : Keeps s (epdInitNext rest s) := by
  unfold epdInitNext
  split
  · exact finishRequest_keeps s
  all_goals exact ⟨rfl, rfl, rfl, rfl, rfl, rfl, rfl, rfl, rfl, rfl, rfl, rfl, id, nofun⟩

theorem goledInitNext_keeps (rest : List (List Byte)) (s : State) : Keeps s (goledInitNext rest s) := by
  unfold goledInitNext
  split
  all_goals exact ⟨rfl, rfl, rfl, rfl, rfl, rfl, rfl, rfl, rfl, rfl, rfl, rfl, id, nofun⟩

theorem woledInitNext_keeps (rest : List (List Byte)) (s : State) : Keeps s (woledInitNext rest s) := by
  unfold woledInitNext
  split
  · exact finishRequest_keeps s
  · exact ⟨rfl, rfl, rfl, rfl, rfl, rfl, rfl, rfl, rfl, rfl, rfl, rfl, id, nofun⟩

/-- Moving on from the end of an event keeps all of `Keeps`. -/
theorem resume_keeps (s : State) : Keeps s (resume s) := by
  unfold resume
  split
  · exact epdInitNext_keeps _ s
  · exact ⟨rfl, rfl, rfl, rfl, rfl, rfl, rfl, rfl, rfl, rfl, rfl, rfl, id, nofun⟩
  · exact epdRowOrEnd_keeps _ s
  · exact ⟨rfl, rfl, rfl, rfl, rfl, rfl, rfl, rfl, rfl, rfl, rfl, rfl, id, nofun⟩
  · exact ⟨rfl, rfl, rfl, rfl, rfl, rfl, rfl, rfl, rfl, rfl, rfl, rfl, fun _ => by simp, nofun⟩
  · exact epdGroupOrRow_keeps _ s
  · exact epdGroupOrRow_keeps _ s
  · exact goledInitNext_keeps _ s
  · exact ⟨rfl, rfl, rfl, rfl, rfl, rfl, rfl, rfl, rfl, rfl, rfl, rfl, id, nofun⟩
  · exact goledRowOrEnd_keeps _ s
  · exact goledNext_keeps s
  · exact woledInitNext_keeps _ s
  · exact ⟨rfl, rfl, rfl, rfl, rfl, rfl, rfl, rfl, rfl, rfl, rfl, rfl, id, nofun⟩
  · exact woledPageOrEnd_keeps _ s
  · exact woledNext_keeps s
  all_goals exact Keeps.refl s

theorem settle_keeps (s : State) : Keeps s (settle s) := by
  rcases settle_cases s with ⟨-, -, h⟩ | ⟨-, h⟩ <;> rw [h]
  · exact resume_keeps s
  · exact Keeps.refl s

theorem Keeps.settle {s t : State} (h : Keeps s t) : Keeps s (settle t) := h.trans (settle_keeps t)

theorem Keeps.resume {s t : State} (h : Keeps s t) : Keeps s (resume t) := h.trans (resume_keeps t)

theorem Keeps.epdInitNext {s t : State} {rest : List InitAction} (h : Keeps s t) : Keeps s (epdInitNext rest t) :=
  h.trans (epdInitNext_keeps rest t)

/-- Coming to raise a fault is a move. -/
theorem raiseFault_keeps (code : FaultCode) (s : State) : Keeps s (raiseFault code s) :=
  ⟨rfl, rfl, rfl, rfl, rfl, rfl, rfl, rfl, rfl, rfl, rfl, rfl, id, nofun⟩

theorem startWrite_keeps (s : State) : Keeps s (startWrite s) := by
  unfold startWrite
  dsimp only
  split
  · split
    · exact raiseFault_keeps _ s
    · exact epdBegin_keeps _ s
  · split
    · exact writeDone_keeps s
    · split
      · exact raiseFault_keeps _ s
      · exact goledBegin_keeps _ s
  · split
    · exact raiseFault_keeps _ s
    · exact woledBegin_keeps _ s

theorem Keeps.startWrite {s t : State} (h : Keeps s t) : Keeps s (startWrite t) := h.trans (startWrite_keeps t)

/-- A request whose body is a move is a move. -/
theorem serve_keeps {isInit : Bool} {l : Latch} {ok : Bool} {go : State → State} {s t : State}
    (hgo : ∀ u, Keeps u (go u)) (h : serve isInit l ok go s = .next t) : Keeps s t := by
  have hl : Keeps s { s with latch := l } := ⟨rfl, rfl, rfl, rfl, rfl, rfl, rfl, rfl, rfl, rfl, rfl, rfl, id, fun _ => rfl⟩
  rcases serve_cases isInit l ok go s with ⟨-, e⟩ | ⟨-, e⟩ | ⟨-, -, -, e⟩ | ⟨-, -, e⟩ <;> rw [e] at h <;>
    obtain rfl := Host.Outcome.next.inj h
  · exact hl.trans (hgo _)
  · exact hl.trans (raiseFault_keeps _ _)
  · exact hl.trans (raiseFault_keeps _ _)
  · exact Keeps.refl s

/-! ### Reads -/

theorem hostRead_keeps {α : Type} (v : α) (free : Byte → α) (s : State) : Keeps s (hostRead v free s).2 := by
  rcases hostRead_cases v free s with ⟨-, h⟩ | ⟨rest, -, h⟩ | ⟨rest, -, h⟩ <;> rw [h]
  · exact Keeps.refl s
  all_goals exact ⟨rfl, rfl, rfl, rfl, rfl, rfl, rfl, rfl, rfl, rfl, rfl, rfl, id, fun _ => rfl⟩

theorem pixRead_keeps (c : Color) (s : State) : Keeps s (pixRead c s).2 := by
  unfold pixRead
  split
  · exact hostRead_keeps _ _ s
  · exact hostRead_keeps _ _ s
  all_goals exact Keeps.refl s

theorem strRead_keeps (s : State) : Keeps s (strRead s).2 := by
  unfold strRead
  split
  · exact hostRead_keeps _ _ s
  · exact ⟨rfl, rfl, rfl, rfl, rfl, rfl, rfl, rfl, rfl, rfl, rfl, rfl, id, fun _ => rfl⟩

theorem glyphRead_keeps (s : State) : Keeps s (glyphRead s).2 := hostRead_keeps _ _ s

/-! ### One event -/

/-- A state after one event other than Diag and Halt: it entered the trace, and the fields it is about changed with it. -/
inductive EventOf (s : State) : State → Prop where
  | delay (ms : Nat) : EventOf s (emit (.delay ms) s)
  | respond (v : Half) : EventOf s (emit (.respond v) s)
  | rst (l : Level) (hp : s.pos = .resetLow ∨ s.pos = .resetHigh) : EventOf s (driveRst l { s with ops := s.ops + 1 })
  | dc (l : DcLevel) : EventOf s (driveDc l { s with ops := s.ops + 1 })
  | cs (l : CsLevel) (rest : List BusOp) (hb : s.bus = .cs l :: rest) : EventOf s (driveCs l { s with ops := s.ops + 1 })
  | xfer (b : Byte) : EventOf s (emit (.xfer b) { s with ops := s.ops + 1 })
  | pixel (b : Byte) (d : Int × Int) (a : Nat) (rest : List BusOp) (hb : s.bus = .xfer b (some d) :: rest)
      (ha : fmAddr s.cfg.variant d = some a) :
      EventOf s (emit (.xfer b) { s with ops := s.ops + 1, fm := Memory.write s.fm a b })
  | sample (site : WaitSite) (hp : s.pos = .sample site) : EventOf s (sampleBusy { s with ops := s.ops + 1 })

/-- From `s` to `t`: one event, and then moves; or the first event of a fault; or its Halt after Diag. -/
def OneEvent (s t : State) : Prop :=
  (∃ u, EventOf s u ∧ Keeps u t) ∨
  (∃ code u, Keeps s u ∧ t = takeFault code u) ∨
  ∃ code, s.pos = .halting code ∧ t = halt code s

/-- Taking a fault, after moves, is one event. -/
theorem takeFault_event (code : FaultCode) {s u : State} (h : Keeps s u) : OneEvent s (takeFault code u) :=
  .inr (.inl ⟨code, u, h, rfl⟩)

/-- A query: one read and then `k`, or the first event of ADAPTER_RANGE. -/
theorem query_step (px py : Int) (s : State) (k : Color → State → State) (hk : ∀ c u, Keeps s u → Keeps s (k c u)) :
    Keeps s (query px py s k) ∨ OneEvent s (query px py s k) := by
  rcases query_cases px py s k with ⟨c, -, h⟩ | ⟨-, h⟩ <;> rw [h]
  · exact .inl (hk _ _ (pixRead_keeps c s))
  · exact .inr (takeFault_event _ (Keeps.refl s))

/-- One operation of a transaction group: its event, and the sequencer moves on; or, where it fails, the first event of its
fault. -/
theorem driveBus_event {s t : State} (h : driveBus s = .next t) (hb : s.bus ≠ []) : OneEvent s t := by
  have hr : ∀ rest, Keeps s { s with bus := rest } := fun rest =>
    ⟨rfl, rfl, rfl, rfl, rfl, rfl, rfl, rfl, rfl, rfl, rfl, rfl, id, fun _ => rfl⟩
  unfold driveBus at h
  split at h
  · contradiction
  · rename_i l rest e
    obtain rfl := Host.Outcome.next.inj h
    rcases pinOp_cases { s with bus := rest } (fun s => settle (driveDc l s)) with ⟨u, -, h'⟩ | ⟨-, h'⟩ <;> rw [h']
    · exact takeFault_event _ (hr rest)
    · exact .inl ⟨_, .dc l, Keeps.settle ⟨rfl, rfl, rfl, rfl, rfl, rfl, rfl, rfl, rfl, rfl, rfl, rfl, id, fun _ => rfl⟩⟩
  · rename_i l rest e
    obtain rfl := Host.Outcome.next.inj h
    rcases pinOp_cases { s with bus := rest } (fun s => settle (driveCs l s)) with ⟨u, -, h'⟩ | ⟨-, h'⟩ <;> rw [h']
    · exact takeFault_event _ (hr rest)
    · exact .inl ⟨_, .cs l rest e, Keeps.settle ⟨rfl, rfl, rfl, rfl, rfl, rfl, rfl, rfl, rfl, rfl, rfl, rfl, id, fun _ => rfl⟩⟩
  · rename_i b d rest e
    rcases busOp_cases { s with bus := rest } (fun s => settleAfter (transfer b d s)) with ⟨u, -, h'⟩ | ⟨-, h'⟩ <;>
      rw [h'] at h
    · obtain rfl := Host.Outcome.next.inj h
      exact takeFault_event _ (hr rest)
    · dsimp only at h
      rcases transfer_cases b d { s with bus := rest, ops := s.ops + 1 } with ⟨rfl, h2⟩ | ⟨d', a, rfl, ha, h2⟩ | ⟨d', rfl, ha, h2⟩ <;>
        rw [h2] at h
      · obtain rfl := Host.Outcome.next.inj h
        exact .inl ⟨_, .xfer b, Keeps.settle ⟨rfl, rfl, rfl, rfl, rfl, rfl, rfl, rfl, rfl, rfl, rfl, rfl, id, fun _ => rfl⟩⟩
      · obtain rfl := Host.Outcome.next.inj h
        exact .inl ⟨_, .pixel b d' a rest e ha, Keeps.settle ⟨rfl, rfl, rfl, rfl, rfl, rfl, rfl, rfl, rfl, rfl, rfl, rfl, id, fun _ => rfl⟩⟩
      · cases h

/-- A wire command that starts: its first operation is DC. -/
theorem issue_event {v : Variant} {l : DcLevel} {rest : List BusOp} {s t : State} (hm : s.mode ≠ .halted) (hb : s.bus = [])
    (h : issue v (.dc l :: rest) s = .next t) : OneEvent s t := by
  rcases issue_cases v (.dc l :: rest) s with ⟨h1, -⟩ | ⟨-, -, h1⟩ | ⟨-, -, h1⟩
  · exact absurd h1 hm
  · rw [h1] at h; cases h
  · rw [h1, hb, List.nil_append] at h
    simp only [driveBus] at h
    obtain rfl := Host.Outcome.next.inj h
    rcases pinOp_cases { s with send := none, bus := rest } (fun s => settle (driveDc l s)) with ⟨u, -, h'⟩ | ⟨-, h'⟩ <;>
      rw [h']
    · exact takeFault_event _ ⟨rfl, rfl, rfl, rfl, rfl, rfl, rfl, rfl, rfl, rfl, rfl, rfl, id, fun _ => rfl⟩
    · exact .inl ⟨_, .dc l, Keeps.settle ⟨rfl, rfl, rfl, rfl, rfl, rfl, rfl, rfl, rfl, rfl, rfl, rfl, id, fun _ => rfl⟩⟩

/-! ### Instructions -/

/-- The decoder answers only instructions of the space it decodes. -/
theorem decode_space {c : Code} {i : Instr} (h : decode c = .ok i) : (encode i).space = c.space := by
  obtain ⟨sp, w⟩ := c
  cases sp <;> unfold decode at h <;> dsimp only at h
  · split_ifs at h
    unfold decodeDescriptor decodeRequest at h
    repeat' split at h
    all_goals first | contradiction | skip
    rename_i e hz
    unfold decodeOp whenZero at e
    dsimp only at e
    repeat' split at e
    all_goals first | contradiction | skip
    all_goals (obtain rfl := Except.ok.inj h; obtain rfl := Except.ok.inj e; rfl)
  · unfold decodeEpd decodeEpdCommand at h
    repeat' split at h
    all_goals first | contradiction | (obtain rfl := Except.ok.inj h; rfl)
  · unfold decodeGoled at h
    repeat' split at h
    all_goals first | contradiction | (obtain rfl := Except.ok.inj h; rfl)
  · unfold decodeGoledInit at h
    split at h
    all_goals first | contradiction | (obtain rfl := Except.ok.inj h; rfl)
  · unfold decodeWoled at h
    repeat' split at h
    all_goals first | contradiction | (obtain rfl := Except.ok.inj h; rfl)

/-- A request, as it is accepted, is a move. -/
theorem exec_request_keeps {i : Instr} {s t : State} (hi : (encode i).space = .request) (h : exec i s = .next t) :
    Keeps s t := by
  have hw : ∀ src u, Keeps u (startWrite { u with src := src }) := fun src u =>
    Keeps.startWrite ⟨rfl, rfl, rfl, rfl, rfl, rfl, rfl, rfl, rfl, rfl, rfl, rfl, id, fun _ => rfl⟩
  have hr : ∀ v u, Keeps u { u with pos := .respond v } := fun v u =>
    ⟨rfl, rfl, rfl, rfl, rfl, rfl, rfl, rfl, rfl, rfl, rfl, rfl, id, nofun⟩
  cases i
  case init =>
    unfold exec execInit at h
    refine serve_keeps (fun u => ?_) h
    split <;> exact ⟨rfl, rfl, rfl, rfl, rfl, rfl, rfl, rfl, rfl, rfl, rfl, rfl, fun _ => by simp, nofun⟩
  case setFrameCallback => exact serve_keeps (hw .callback) h
  case setFrameBuffer => exact serve_keeps (hw .buffer) h
  case clearFrame => exact serve_keeps (hw .constant) h
  case displayFrame =>
    unfold exec execDisplayFrame at h
    refine serve_keeps (fun u => ?_) h
    split
    · exact ⟨rfl, rfl, rfl, rfl, rfl, rfl, rfl, rfl, rfl, rfl, rfl, rfl, fun _ => by simp, nofun⟩
    all_goals exact finishRequest_keeps u
  case drawText =>
    unfold exec execDrawText at h
    refine serve_keeps (fun u => ?_) h
    dsimp only
    split <;> exact ⟨rfl, rfl, rfl, rfl, rfl, rfl, rfl, rfl, rfl, rfl, rfl, rfl, fun _ => by simp, nofun⟩
  case rdWidth => exact serve_keeps (hr _) h
  case rdHeight => exact serve_keeps (hr _) h
  case rdPpb => exact serve_keeps (hr _) h
  case rdLight => exact serve_keeps (hr _) h
  case rdDark => exact serve_keeps (hr _) h
  all_goals cases hi

/-- A wire command, the bus being free, is one event. -/
theorem exec_wire_event {i : Instr} {s t : State} (hi : (encode i).space ≠ .request) (hm : s.mode ≠ .halted)
    (hb : s.bus = []) (h : exec i s = .next t) : OneEvent s t := by
  cases i
  case init => exact absurd rfl hi
  case setFrameCallback => exact absurd rfl hi
  case setFrameBuffer => exact absurd rfl hi
  case clearFrame => exact absurd rfl hi
  case displayFrame => exact absurd rfl hi
  case drawText => exact absurd rfl hi
  case rdWidth => exact absurd rfl hi
  case rdHeight => exact absurd rfl hi
  case rdPpb => exact absurd rfl hi
  case rdLight => exact absurd rfl hi
  case rdDark => exact absurd rfl hi
  all_goals exact issue_event hm hb h

/-! ### One step -/

/-- The event or read at a point, other than the end of the commit's wait. -/
theorem seqStep_cases (s : State) (hi : s.pos ≠ .idle) :
    ((isRead s.pos = true ∨ isMove s.pos = true) ∧ Keeps s (seqStep s)) ∨ OneEvent s (seqStep s) ∨
    (s.pos = .sample .commit ∧ busyAsserted s = false ∧
      seqStep s = finishRequest { sampleBusy { s with ops := s.ops + 1 } with vis := s.fm }) := by
  have hz : ∀ (e : Event) (p : Pos), isHalting p = false → Keeps (emit e s) { emit e s with pos := p } := fun e p hp =>
    ⟨rfl, rfl, rfl, rfl, rfl, rfl, rfl, rfl, rfl, rfl, rfl, rfl, id, fun hq => absurd (hp.symm.trans hq) nofun⟩
  have hf : ∀ code, OneEvent s (takeFault code s) := fun code => takeFault_event code (Keeps.refl s)
  unfold seqStep
  split
  · contradiction
  · exact .inr (.inl (hf _))
  · exact .inr (.inl (.inr (.inr ⟨_, by assumption, rfl⟩)))
  · exact .inr (.inl (.inl ⟨_, .respond _, finishRequest_keeps _⟩))
  · rename_i hp
    rcases pinOp_cases s (fun s => { driveRst .low s with pos := .resetHold }) with ⟨u, -, h'⟩ | ⟨-, h'⟩ <;> rw [h']
    · exact .inr (.inl (hf _))
    · exact .inr (.inl (.inl ⟨_, .rst .low (.inl hp), rfl, rfl, rfl, rfl, rfl, rfl, rfl, rfl, rfl, rfl, rfl, rfl, id, nofun⟩))
  · exact .inr (.inl (.inl ⟨_, .delay _, hz _ _ rfl⟩))
  · rename_i hp
    rcases pinOp_cases s (fun s => { driveRst .high s with pos := .resetSettle }) with ⟨u, -, h'⟩ | ⟨-, h'⟩ <;> rw [h']
    · exact .inr (.inl (hf _))
    · exact .inr (.inl (.inl ⟨_, .rst .high (.inr hp), rfl, rfl, rfl, rfl, rfl, rfl, rfl, rfl, rfl, rfl, rfl, rfl, id, nofun⟩))
  · exact .inr (.inl (.inl ⟨_, .delay _, Keeps.epdInitNext
      ⟨rfl, rfl, rfl, rfl, rfl, rfl, rfl, rfl, rfl, rfl, rfl, rfl, fun _ => by simp, fun _ => rfl⟩⟩))
  · exact .inr (.inl (.inl ⟨_, .delay _, epdInitNext_keeps _ _⟩))
  · rename_i site hp
    rcases pinOp_cases s (fun s =>
      if busyAsserted s then { sampleBusy s with pos := .poll site } else waitDone site (sampleBusy s)) with
      ⟨u, -, h'⟩ | ⟨-, h'⟩ <;> rw [h']
    · exact .inr (.inl (hf _))
    · split
      · exact .inr (.inl (.inl ⟨_, .sample site hp, rfl, rfl, rfl, rfl, rfl, rfl, rfl, rfl, rfl, rfl, rfl, rfl, id, nofun⟩))
      · rename_i hbusy
        have hb' : busyAsserted s = false := Bool.eq_false_iff.mpr hbusy
        cases site with
        | init rest =>
          refine .inr (.inl (.inl ⟨_, .sample _ hp, ?_⟩))
          unfold waitDone
          exact Keeps.resume
            ⟨rfl, rfl, rfl, rfl, rfl, rfl, rfl, rfl, rfl, rfl, rfl, rfl, id, nofun⟩
        | pointer =>
          exact .inr (.inl (.inl ⟨_, .sample _ hp, rfl, rfl, rfl, rfl, rfl, rfl, rfl, rfl, rfl, rfl, rfl, rfl,
            fun _ => by simp [waitDone], nofun⟩))
        | commit =>
          refine .inr (.inr ⟨hp, hb', ?_⟩)
          simp [waitDone]
  · exact .inr (.inl (.inl ⟨_, .delay _, hz _ _ rfl⟩))
  · rename_i hp
    refine (query_step _ _ s _ (fun c u hu => hu.trans ?_)).imp (fun h => ⟨.inl (by simp [hp, isRead]), h⟩) .inl
    dsimp only
    split
    · exact ⟨rfl, rfl, rfl, rfl, rfl, rfl, rfl, rfl, rfl, rfl, rfl, rfl, id, fun _ => rfl⟩
    · exact ⟨rfl, rfl, rfl, rfl, rfl, rfl, rfl, rfl, rfl, rfl, rfl, rfl, id, nofun⟩
  · exact .inr (.inl (.inl ⟨_, .delay _, goledInitNext_keeps _ _⟩))
  · exact .inr (.inl (.inl ⟨_, .delay _, finishRequest_keeps _⟩))
  · rename_i hp
    refine (query_step _ _ s _ (fun c u hu => hu.trans ?_)).imp (fun h => ⟨.inl (by simp [hp, isRead]), h⟩) .inl
    exact ⟨rfl, rfl, rfl, rfl, rfl, rfl, rfl, rfl, rfl, rfl, rfl, rfl, id, nofun⟩
  · rename_i hp
    refine (query_step _ _ s _ (fun c u hu => hu.trans ?_)).imp (fun h => ⟨.inl (by simp [hp, isRead]), h⟩) .inl
    exact ⟨rfl, rfl, rfl, rfl, rfl, rfl, rfl, rfl, rfl, rfl, rfl, rfl, id, nofun⟩
  · exact .inr (.inl (.inl ⟨_, .delay _, hz _ _ rfl⟩))
  · exact .inr (.inl (.inl ⟨_, .delay _, woledInitNext_keeps _ _⟩))
  · rename_i hp
    refine (query_step _ _ s _ (fun c u hu => hu.trans ?_)).imp (fun h => ⟨.inl (by simp [hp, isRead]), h⟩) .inl
    dsimp only
    split
    · exact ⟨rfl, rfl, rfl, rfl, rfl, rfl, rfl, rfl, rfl, rfl, rfl, rfl, id, fun _ => rfl⟩
    · exact ⟨rfl, rfl, rfl, rfl, rfl, rfl, rfl, rfl, rfl, rfl, rfl, rfl, id, nofun⟩
  · rename_i hp
    refine .inl ⟨.inl (by simp [hp, isRead]), (strRead_keeps s).trans ?_⟩
    exact ⟨rfl, rfl, rfl, rfl, rfl, rfl, rfl, rfl, rfl, rfl, rfl, rfl, id, nofun⟩
  · rename_i hp
    refine .inl ⟨.inl (by simp [hp, isRead]), (glyphRead_keeps s).trans ?_⟩
    unfold readGlyph
    dsimp only
    split
    · exact ⟨rfl, rfl, rfl, rfl, rfl, rfl, rfl, rfl, rfl, rfl, rfl, rfl, id, fun _ => rfl⟩
    · split
      · exact ⟨rfl, rfl, rfl, rfl, rfl, rfl, rfl, rfl, rfl, rfl, rfl, rfl, id, fun _ => rfl⟩
      · exact Keeps.startWrite ⟨rfl, rfl, rfl, rfl, rfl, rfl, rfl, rfl, rfl, rfl, rfl, rfl, id, fun _ => rfl⟩
  all_goals
    rename_i hp
    exact .inl ⟨.inr (by simp [hp, isMove]), resume_keeps s⟩

/-- EVERYTHING A STEP CAN DO: stay (nothing is due, or HALTED); complete one read; accept a request, with no event; complete
one event; or end the commit's wait with the visible image written. Moves follow in the same step. -/
theorem step_cases {s t : State} (h : step s = .next t) :
    (t = s ∧ (s.mode = .halted ∨ s.pos = .idle)) ∨
    (s.mode ≠ .halted ∧ s.bus = [] ∧ s.send = none ∧ (isRead s.pos = true ∨ isMove s.pos = true) ∧ Keeps s t) ∨
    (s.bus = [] ∧ s.send = none ∧ s.pos = .idle ∧ (s.mode = .uninit ∨ s.mode = .idle) ∧ ∃ r rest, s.host = r :: rest ∧
      Keeps (accept r s) t) ∨
    (s.mode ≠ .halted ∧ OneEvent s t) ∨
    (s.mode ≠ .halted ∧ s.pos = .sample .commit ∧ busyAsserted s = false ∧
      t = finishRequest { sampleBusy { s with ops := s.ops + 1 } with vis := s.fm }) := by
  by_cases hm : s.mode = .halted
  · unfold step at h
    rw [if_pos hm] at h
    exact .inl ⟨(Host.Outcome.next.inj h).symm, .inl hm⟩
  by_cases hb : s.bus = []
  swap
  · rw [step_bus hm hb] at h
    exact .inr (.inr (.inr (.inl ⟨hm, driveBus_event h hb⟩)))
  rcases Option.eq_none_or_eq_some s.send with hs | ⟨w, hs⟩
  · by_cases hp : s.pos = .idle
    · by_cases ha : (s.mode = .uninit ∨ s.mode = .idle) ∧ s.host ≠ []
      · obtain ⟨ha, hh⟩ := ha
        obtain ⟨r, rest, hh⟩ := List.exists_cons_of_ne_nil hh
        refine .inr (.inr (.inl ⟨hb, hs, hp, ha, r, rest, hh, ?_⟩))
        rw [step_accept ha hp hb hs hh] at h
        split at h
        · rename_i i hd
          exact exec_request_keeps (decode_space hd) h
        · obtain rfl := Host.Outcome.next.inj h
          exact raiseFault_keeps _ _
      · have hn : presented s = none := by
          unfold presented
          cases hmode : s.mode <;> simp_all
        unfold step fetch advance at h
        rw [if_neg hm, hb, hs] at h
        simp only [hn, Option.map_none, seqStep, hp] at h
        exact .inl ⟨(Host.Outcome.next.inj h).symm, .inr hp⟩
    · rw [step_point hm hb hs hp] at h
      obtain rfl := Host.Outcome.next.inj h
      rcases seqStep_cases s hp with ⟨k1, k2⟩ | k | ⟨k1, k2, k3⟩
      · exact .inr (.inl ⟨hm, hb, hs, k1, k2⟩)
      · exact .inr (.inr (.inr (.inl ⟨hm, k⟩)))
      · exact .inr (.inr (.inr (.inr ⟨hm, k1, k2, k3⟩)))
  · have hstep : step s = match decode ⟨wireSpace s, w⟩ with
        | .ok i => exec i s
        | .error _ => reject ⟨wireSpace s, w⟩ s := by
      unfold step fetch
      rw [if_neg hm, hb, hs]
      all_goals rfl
    have hsp : wireSpace s ≠ .request := by
      unfold wireSpace
      split
      · simp
      · split <;> simp
      · simp
    rw [hstep] at h
    split at h
    · rename_i i hd
      refine .inr (.inr (.inr (.inl ⟨hm, exec_wire_event ?_ hm hb h⟩)))
      rw [decode_space hd]
      exact hsp
    · unfold reject at h
      split at h <;> contradiction

end Sys2Proof.Machine
end

