-- ==== Sys2Proof/Tests/Slice0.lean ====
section
/-! SUPPORT. The model's own tests: the checks of WellFormed refuse, words written out from 30_encoding decode, single
steps give what 95_test_vectors states, and for every statement with hypotheses a state that meets them. -/

namespace Sys2Proof.Tests

open Sys2Proof.Machine

/-! ### Small states -/

/-- A concrete admitted configuration; every glyph has only its top left pixel set. -/
def tcfg (v : Variant) : Config where
  variant := v
  goledLight := 0x0F
  goledDark := 0x00
  degenerateExtent := .empty
  framing := .perByte
  csActiveLevel := .low
  dcCmdLevel := .low
  busyActiveLevel := .high
  resetLowMs := 200
  resetSettleMs := 200
  pollMs := 10
  epdInitSeq := [.cmd 0x01 [], .cmd 0x11 [0x03], .cmd 0x44 [], .cmd 0x45 [], .cmd 0x3C [], .wait]
  goledInitBlock := [List.replicate 19 0x12, [0xAF]]
  goledDisplayOn := [0xAF]
  goledDPre := 1
  goledDPost := 2
  woledD1 := 3
  woledD2 := 4
  glyph := Vector.replicate 256 1
  diagEnabled := true

/-- An instance in a mode and at a position. -/
def at' (v : Variant) (m : Mode) (p : Pos) : State := { State.powerOn (tcfg v) with mode := m, pos := p }

/-- An instance in IDLE with no request. -/
def idle (v : Variant) : State := at' v .idle .idle

/-- The same under DEGENERATE_EXTENT = FAULT. -/
def idleFault (v : Variant) : State :=
  { idle v with cfg := { tcfg v with degenerateExtent := .fault } }

/-- A request the host presents, its descriptor given from byte 0 on, the bytes left out zero. -/
def requestOf (bs : List Byte) : HostRequest := ⟨descOf bs, ⟨⟨0, []⟩, [], []⟩⟩

/-- An instance with no request in progress, to which the host presents one. -/
def offered (v : Variant) (m : Mode) (bs : List Byte) : State := { at' v m .idle with host := [requestOf bs] }

/-- The next state of an outcome, or the state given. -/
def nextOr (d : State) : Host.Outcome State Fault Refusal → State
  | .next t => t
  | .fault _ => d
  | .refused _ => d

/-- What `exec` makes of an idle instance. -/
def after (i : Instr) (v : Variant) : State := nextOr (idle v) (exec i (idle v))

/-! ### WellFormed refuses -/

theorem test_wf_empty_init_block_command : (Instr.goledInitBlock []).wf = false := by decide
theorem test_wf_undefined_init_opcode : initActionOk (.cmd 0x00 []) = false := by decide
theorem test_wf_init_sequence_out_of_order :
    epdInitSeqOk [.cmd 0x11 [], .cmd 0x01 [], .cmd 0x44 [], .cmd 0x45 [], .cmd 0x3C []] = false := by decide
theorem test_wf_init_sequence_with_bad_action :
    epdInitSeqOk [.cmd 0x01 [], .cmd 0x11 [], .cmd 0x44 [], .cmd 0x45 [], .cmd 0x3C [], .cmd 0xFF []] = false := by decide
theorem test_wf_empty_init_block : goledInitBlockOk [0xAF] [] = false := by decide
theorem test_wf_init_block_with_empty_command : goledInitBlockOk [0xAF] [List.replicate 29 0, [], [0xAF]] = false := by decide
theorem test_wf_init_block_without_display_on : goledInitBlockOk [0xAF] [[0xAF], List.replicate 29 0] = false := by decide
theorem test_wf_init_block_length :
    goledInitBlockOk [0xAF] [List.replicate 18 0, [0xAF]] = false ∧ goledInitBlockOk [0xAF] [List.replicate 19 0, [0xAF]] = true ∧
    goledInitBlockOk [0xAF] [List.replicate 39 0, [0xAF]] = true ∧ goledInitBlockOk [0xAF] [List.replicate 40 0, [0xAF]] = false := by
  decide
theorem test_wf_config : ({ tcfg .epd with epdInitSeq := [] } : Config).wf = false := by decide
theorem test_wf_color : colorOk .epd 2 = false ∧ colorOk .woled 0xFF = false ∧ colorOk .goled 2 = true := by decide
theorem test_wf_ports_base : Ports.wf .woled ⟨⟨2, []⟩, [], []⟩ = false := by decide
theorem test_wf_ports_cell : Ports.wf .epd ⟨⟨0, [(0, 0, 2)]⟩, [], []⟩ = false := by decide
theorem test_wf_ports_buffer : Ports.wf .epd ⟨⟨0, []⟩, [0, 2], []⟩ = false := by decide
theorem test_wf_string_too_short :
    (HostRequest.mk #v[0x06, 0, 0, 0, 0, 0, 0, 0, 2, 0, 0, 0] ⟨⟨0, []⟩, [], [0x41]⟩).stringOk = false := by decide

/-! ### Words written out from the encoding tables (30_encoding R111, R112, R115) -/

theorem test_decode_init :
    decode ⟨.request, ⟨[0x01, 0, 0, 0, 0, 0, 0, 0, 0, 0, 0, 0], []⟩⟩ = .ok .init := by decide
/-- 95_test_vectors DEC3. -/
theorem test_decode_setFrameCallback :
    decode ⟨.request, ⟨[0x02, 0, 0, 0, 0xE8, 0x03, 0xD0, 0x07, 0x2C, 0x01, 0x90, 0x01], []⟩⟩ =
      .ok (.setFrameCallback 1000 2000 300 400) := by decide
theorem test_decode_setFrameBuffer :
    decode ⟨.request, ⟨[0x03, 0, 0, 0, 0x02, 0x00, 0x03, 0x00, 0x04, 0x00, 0x02, 0x01], []⟩⟩ =
      .ok (.setFrameBuffer 2 3 4 258) := by decide
theorem test_decode_clearFrame :
    decode ⟨.request, ⟨[0x04, 0xA5, 0, 0, 0, 0, 0, 0, 0, 0, 0, 0], []⟩⟩ = .ok (.clearFrame 0xA5) := by decide
theorem test_decode_displayFrame :
    decode ⟨.request, ⟨[0x05, 0, 0, 0, 0, 0, 0, 0, 0, 0, 0, 0], []⟩⟩ = .ok .displayFrame := by decide
theorem test_decode_drawText :
    decode ⟨.request, ⟨[0x06, 0x0F, 0x02, 0, 0x08, 0x01, 0x09, 0x00, 0x05, 0x00, 0, 0], []⟩⟩ =
      .ok (.drawText 0x0F 0x02 264 9 5) := by decide
theorem test_decode_rdWidth :
    decode ⟨.request, ⟨[0x10, 0, 0, 0, 0, 0, 0, 0, 0, 0, 0, 0], []⟩⟩ = .ok .rdWidth := by decide
theorem test_decode_rdHeight :
    decode ⟨.request, ⟨[0x11, 0, 0, 0, 0, 0, 0, 0, 0, 0, 0, 0], []⟩⟩ = .ok .rdHeight := by decide
theorem test_decode_rdPpb :
    decode ⟨.request, ⟨[0x12, 0, 0, 0, 0, 0, 0, 0, 0, 0, 0, 0], []⟩⟩ = .ok .rdPpb := by decide
theorem test_decode_rdLight :
    decode ⟨.request, ⟨[0x13, 0, 0, 0, 0, 0, 0, 0, 0, 0, 0, 0], []⟩⟩ = .ok .rdLight := by decide
theorem test_decode_rdDark :
    decode ⟨.request, ⟨[0x14, 0, 0, 0, 0, 0, 0, 0, 0, 0, 0, 0], []⟩⟩ = .ok .rdDark := by decide

/-! EPD (30_encoding R125). -/

theorem test_decode_epdDriverOutputControl :
    decode ⟨.epd, ⟨[0x01], [0xC7, 0x00, 0x00]⟩⟩ = .ok (.epdDriverOutputControl [0xC7, 0x00, 0x00]) := by decide
theorem test_decode_epdDataEntryMode :
    decode ⟨.epd, ⟨[0x11], [0x03]⟩⟩ = .ok (.epdDataEntryMode [0x03]) := by decide
theorem test_decode_epdSetRamXWindow :
    decode ⟨.epd, ⟨[0x44], [0x00, 0x18]⟩⟩ = .ok (.epdSetRamXWindow [0x00, 0x18]) := by decide
theorem test_decode_epdSetRamYWindow :
    decode ⟨.epd, ⟨[0x45], [0xD0, 0x07, 0xC7, 0x00]⟩⟩ = .ok (.epdSetRamYWindow [0xD0, 0x07, 0xC7, 0x00]) := by decide
theorem test_decode_epdBorder : decode ⟨.epd, ⟨[0x3C], [0x05]⟩⟩ = .ok (.epdBorder [0x05]) := by decide
theorem test_decode_epdDisplayUpdateControl :
    decode ⟨.epd, ⟨[0x21], [0x40]⟩⟩ = .ok (.epdDisplayUpdateControl [0x40]) := by decide
theorem test_decode_epdTemperatureSensor :
    decode ⟨.epd, ⟨[0x18], [0x80]⟩⟩ = .ok (.epdTemperatureSensor [0x80]) := by decide
theorem test_decode_epdUpdateSequenceSelect :
    decode ⟨.epd, ⟨[0x22], [0xF7]⟩⟩ = .ok (.epdUpdateSequenceSelect [0xF7]) := by decide
theorem test_decode_epdActivateUpdate :
    decode ⟨.epd, ⟨[0x20], []⟩⟩ = .ok (.epdActivateUpdate []) ∧
    decode ⟨.epd, ⟨[0x20], [0x01]⟩⟩ = .ok (.epdActivateUpdate [0x01]) := by decide
theorem test_decode_epdWriteRam : decode ⟨.epd, ⟨[0x24], []⟩⟩ = .ok (.epdWriteRam []) := by decide
theorem test_decode_epdSetRamXPointer :
    decode ⟨.epd, ⟨[0x4E], [0x18]⟩⟩ = .ok (.epdSetRamXPointer [0x18]) := by decide
theorem test_decode_epdSetRamYPointer :
    decode ⟨.epd, ⟨[0x4F], [0xC7, 0x00]⟩⟩ = .ok (.epdSetRamYPointer [0xC7, 0x00]) := by decide

/-! GOLED (30_encoding R124, R127), WOLED (R128) and the pixel bytes (R122). -/

theorem test_decode_goledSetColumnWindow :
    decode ⟨.goled, ⟨[0x15, 0x01, 0x3F], []⟩⟩ = .ok (.goledSetColumnWindow 0x01 0x3F) := by decide
theorem test_decode_goledSetRowWindow :
    decode ⟨.goled, ⟨[0x75, 0x03, 0x7F], []⟩⟩ = .ok (.goledSetRowWindow 0x03 0x7F) := by decide
theorem test_decode_goledInitBlock :
    decode ⟨.goledInit, ⟨[0x15, 0x01], []⟩⟩ = .ok (.goledInitBlock [0x15, 0x01]) := by decide
theorem test_decode_woledSetAddressingModeHorizontal :
    decode ⟨.woled, ⟨[0x20, 0x00], []⟩⟩ = .ok .woledSetAddressingModeHorizontal := by decide
theorem test_decode_woledFlipVertical : decode ⟨.woled, ⟨[0xA1], []⟩⟩ = .ok .woledFlipVertical := by decide
theorem test_decode_woledFlipHorizontal : decode ⟨.woled, ⟨[0xC8], []⟩⟩ = .ok .woledFlipHorizontal := by decide
theorem test_decode_woledDisplayOn : decode ⟨.woled, ⟨[0xAF], []⟩⟩ = .ok .woledDisplayOn := by decide
theorem test_decode_woledSetColumnWindow :
    decode ⟨.woled, ⟨[0x21, 0x00, 0x7F], []⟩⟩ = .ok (.woledSetColumnWindow 0x00 0x7F) := by decide
theorem test_decode_woledSetPageWindow :
    decode ⟨.woled, ⟨[0x22, 0x01, 0x07], []⟩⟩ = .ok (.woledSetPageWindow 0x01 0x07) := by decide
theorem test_decode_epdPixelData : decode ⟨.epd, ⟨[], [0xFE]⟩⟩ = .ok (.epdPixelData 0xFE) := by decide
theorem test_decode_goledPixelData : decode ⟨.goled, ⟨[], [0xF3]⟩⟩ = .ok (.goledPixelData 0xF3) := by decide
theorem test_decode_woledPixelData : decode ⟨.woled, ⟨[], [0x01]⟩⟩ = .ok (.woledPixelData 0x01) := by decide

/-- 30_encoding R116, R117, R126, R129: what is no instruction. -/
theorem test_decode_rejects :
    decode ⟨.request, ⟨[0x07, 0, 0, 0, 0, 0, 0, 0, 0, 0, 0, 0], []⟩⟩ = .error .undefinedOpcode ∧
    decode ⟨.request, ⟨[0x05, 0, 0, 1, 0, 0, 0, 0, 0, 0, 0, 0], []⟩⟩ = .error .reservedNotZero ∧
    decode ⟨.request, ⟨[0x06, 0, 0, 0, 0, 0, 0, 0, 0, 0, 0, 1], []⟩⟩ = .error .unusedFieldNotZero ∧
    decode ⟨.request, ⟨[0x05, 0, 0, 0], []⟩⟩ = .error .badLength ∧
    decode ⟨.epd, ⟨[0x10], []⟩⟩ = .error .undefinedWireCommand ∧
    decode ⟨.goled, ⟨[0xAF], []⟩⟩ = .error .undefinedWireCommand ∧
    decode ⟨.woled, ⟨[0x20, 0x01], []⟩⟩ = .error .undefinedWireCommand := by decide

/-- Table words (log 14): a request, an EPD command with its payload zero, a GOLED and two WOLED commands. -/
theorem test_table_words :
    decodeTableWord 8 0x02 = some (.setFrameCallback 0 0 0 0) ∧
    decodeTableWord 8 0x45 = some (.epdSetRamYWindow [0, 0, 0, 0]) ∧
    decodeTableWord 8 0x75 = some (.goledSetRowWindow 0 0) ∧
    decodeTableWord 8 0xAF = some .woledDisplayOn ∧
    decodeTableWord 16 0x0020 = some .woledSetAddressingModeHorizontal ∧
    decodeTableWord 96 0x010203040506070800000002 = some (.setFrameCallback 0x0708 0x0506 0x0304 0x0102) := by
  decide

/-- A table word is what the next step runs: RD_WIDTH in UNINIT is an illegal state (40 R162), and DISPLAY_ON's first
event is DC at command level (00_scope R11). -/
theorem test_fetch_word :
    (nextOr State.reset (step (State.reset.withFetchWord 8 0x10))).pos = .raising .illegalState ∧
    (nextOr State.reset (step (State.reset.withFetchWord 8 0xAF))).trace = [.dc .cmd] ∧
    (nextOr State.reset (step (State.reset.withFetchWord 8 0x01))).mode = .resetting := by
  refine ⟨rfl, rfl, rfl⟩

/-! ### Single steps -/

/-- 95_test_vectors L1.4: `C 44`, `D 7D 18`. -/
theorem test_epd_window_off_panel :
    (after (.setFrameCallback 1000 2000 300 400) .epd).send = some ⟨[0x44], [0x7D, 0x18]⟩ := by decide

/-- 95_test_vectors L1.4: then `C 45`, `D D0 07 C7 00`. -/
theorem test_epd_row_window :
    (resume { after (.setFrameCallback 1000 2000 300 400) .epd with send := none }).send =
      some ⟨[0x45], [0xD0, 0x07, 0xC7, 0x00]⟩ := by decide

/-- 95_test_vectors L1.1: seven dark pixels are in SR, the eighth is light: `D FE`. -/
theorem test_epd_packs_fe :
    (nextOr (idle .epd) (step { at' .epd .writing .epdPixel with
      sr := 0x7F, epd := ⟨0, 8, 7, 0, 0, 0, 7⟩, ports := ⟨⟨1, [(7, 0, 0)]⟩, [], []⟩ })).send = some ⟨[], [0xFE]⟩ := by
  decide

/-- 95_test_vectors L1.2: the topmost pixel is bit 0. -/
theorem test_woled_packs_01 :
    (nextOr (idle .woled) (step { at' .woled .writing .woledPixel with
      ports := ⟨⟨0, [(0, 0, 1)]⟩, [], []⟩ })).send = some ⟨[], [0x01]⟩ := by decide

/-- 95_test_vectors L1.3: the pair (0xF, 0x3). -/
theorem test_goled_packs_f3 :
    (nextOr (idle .goled) (step { at' .goled .writing .goledRight with
      goled := ⟨0, 1, 0, 0, 0, 0, 0xF, 0⟩, src := .buffer, latch := ⟨0x03, 0, 0, 0, 0, 0, 2, 1⟩
      ports := ⟨⟨0, []⟩, [0xF, 0x3], []⟩ })).send = some ⟨[], [0xF3]⟩ := by decide

/-- 95_test_vectors L1.6: `C 15 01 02`. -/
theorem test_goled_column_window :
    (after (.setFrameBuffer 2 3 4 2) .goled).send = some ⟨[0x15, 0x01, 0x02], []⟩ := by decide

/-- 95_test_vectors L1.7: `SFC 128, 0, 2, 1` on GOLED emits nothing. -/
theorem test_goled_guard : (after (.setFrameCallback 128 0 2 1) .goled).pos = .idle := by decide

/-- 95_test_vectors L1.5: `C 21 00 7F`. -/
theorem test_woled_clear : (after (.clearFrame 1) .woled).send = some ⟨[0x21, 0x00, 0x7F], []⟩ := by decide

/-- 10_state R45 and 40 R171: `RSP 200` is the next event. -/
theorem test_rd_width : (after .rdWidth .epd).pos = .respond 200 := by decide
theorem test_rd_height : (after .rdHeight .woled).pos = .respond 64 := by decide
theorem test_rd_ppb : (after .rdPpb .goled).pos = .respond 2 := by decide
theorem test_rd_light : (after .rdLight .woled).pos = .respond 1 := by decide
theorem test_rd_dark : (after .rdDark .epd).pos = .respond 1 := by decide
theorem test_respond : (nextOr (idle .epd) (step (at' .epd .idle (.respond 200)))).trace = [.respond 200] := by decide

/-- 60_exceptions R366: with DIAG_ENABLED one Diag precedes Halt, each in a step of its own (20_memory R91). -/
theorem test_diag_before_halt :
    (after .init .epd).pos = .raising .illegalState ∧
    (nextOr (idle .epd) (step (after .init .epd))).trace = [.diag] ∧
    (nextOr (idle .epd) (step (nextOr (idle .epd) (step (after .init .epd))))).trace = [.diag, .halt .illegalState] := by
  decide

/-- 60_exceptions R361: the numbers of the codes. -/
theorem test_fault_numbers :
    [FaultCode.busFailure, .pinFailure, .pinUnreportable, .illegalRequest, .illegalState, .illegalArgument, .adapterRange,
      .degenerate].map faultNumber = [0x01, 0x02, 0x03, 0x10, 0x11, 0x12, 0x20, 0x21] := by decide

/-- 41_epaper R240: the activate command is due and MODE is BUSY_UPDATING. -/
theorem test_display_frame :
    (after .displayFrame .epd).send = some ⟨[0x20], []⟩ ∧ (after .displayFrame .epd).mode = .busyUpdating := by decide

/-- 10_state R47, R48: the electrical levels follow CS_ACTIVE_LEVEL and DC_CMD_LEVEL. -/
theorem test_wires : csWire (idle .epd) = .high ∧ dcWire (idle .epd) = .low := by decide

/-- 10_state R51: SR is cleared before each byte, on GOLED too; 42_gray_oled R262: the next pair. -/
theorem test_goled_clears_sr :
    (goledNext { at' .goled .writing .goledNextPair with sr := 0xF3, goled := ⟨0, 2, 1, 0, 0, 0, 0xF, 0x3⟩ }).sr = 0 := by
  decide

/-- 20_memory R94: only the read the host disturbed is a free draw. -/
theorem test_changed_read :
    (nextOr (idle .goled) (step { at' .goled .writing .goledLeft with
      goled := ⟨0, 1, 0, 0, 0, 0, 0, 0⟩, ports := ⟨⟨9, []⟩, [], []⟩, changed := [false, true] })).goled.l = 9 ∧
    (nextOr (idle .goled) (step { at' .goled .writing .goledLeft with
      goled := ⟨0, 1, 0, 0, 0, 0, 0, 0⟩, ports := ⟨⟨9, []⟩, [], []⟩, changed := [true] })).draws = 1 := by decide

/-- 41_epaper R230: busy at its active level is followed by the poll delay. -/
theorem test_busy_poll :
    (nextOr (idle .epd) (step { at' .epd .busyUpdating (.sample .commit) with busyIn := [.high] })).pos =
      .poll .commit := by decide

/-- 44_text R332: a set glyph bit takes the foreground. -/
theorem test_glyph_pixel :
    (nextOr (idle .goled) (step { at' .goled .writing .readGlyph with latch := ⟨0x06, 9, 3, 0, 0, 0, 1, 0⟩ })).tb[0] =
      9 := by decide

/-! ### Witnesses: for every statement with hypotheses, states and operands that meet them, each clause at a boundary -/

/-- The oracle of these states fails nothing. -/
theorem quiet_at (n : Nat) (s : State) (h : s.oracle = none) : quiet n s := by
  intro f hf
  rw [h] at hf
  cases hf

/-- A state whose oracle fails the next operation. -/
def failing (v : Variant) (m : Mode) (p : Pos) (ops : List BusOp) : State :=
  { at' v m p with oracle := some ⟨0, true⟩, bus := ops }

/-- An EPD instance at the first pixel of the last group of the last row. -/
def epdLast : State := { at' .epd .writing .epdPixel with epd := ⟨192, 8, 199, 199, 199, 0, 0⟩ }
/-- A GOLED instance at the left pixel of the last pair of the last row. -/
def goledLast : State := { at' .goled .writing .goledLeft with goled := ⟨63, 1, 63, 127, 127, 63, 0, 0⟩ }
/-- A WOLED instance at the bottom pixel of the last column of the last page. -/
def woledLast : State := { at' .woled .writing .woledPixel with woled := ⟨7, 1, 127, 7, 7, 127, 7⟩ }

theorem witness_StepRunsTheDecodedInstruction :
    (let s := { at' .woled .initializing (.woledInit []) with send := some ⟨[0xAF], []⟩ }
     s.mode ≠ .halted ∧ s.bus = [] ∧ s.send = some ⟨[0xAF], []⟩ ∧ decode ⟨wireSpace s, ⟨[0xAF], []⟩⟩ = .ok .woledDisplayOn) ∧
    (let s := offered .epd .uninit [0x01]
     s.mode = .uninit ∧ s.pos = .idle ∧ s.bus = [] ∧ s.send = none ∧ s.host = [requestOf [0x01]] ∧
       decode ⟨.request, ⟨(requestOf [0x01]).desc.toList, []⟩⟩ = .ok .init) ∧
    (offered .epd .idle [0x05]).mode = .idle := by
  decide

theorem witness_DecodeInvertsEncode :
    (Instr.goledInitBlock [0]).wf = true ∧ (Instr.drawText 0 0xFF 0 0xFFFF 1).wf = true := by decide

theorem witness_EncodeInvertsDecode :
    decode ⟨.woled, ⟨[0x22, 0xFF, 0x00], []⟩⟩ = .ok (.woledSetPageWindow 0xFF 0x00) := by decide

theorem witness_UndefinedOpcodeIsIllegal :
    ∀ m ∈ [Mode.uninit, .idle], ∀ op ∈ ([0x00, 0x07, 0x0F, 0x15, 0xFF] : List Byte), let s := offered .goled m [op]
      s.mode = m ∧ s.pos = .idle ∧ s.bus = [] ∧ s.send = none ∧ s.host = [requestOf [op]] ∧
        (requestOf [op]).desc[0] ∉ definedOps := by decide

theorem witness_NonzeroReservedFieldIsIllegal :
    (let s := offered .epd .uninit [0x01, 0, 0, 1]
     s.mode = .uninit ∧ s.pos = .idle ∧ s.bus = [] ∧ s.send = none ∧ s.host = [requestOf [0x01, 0, 0, 1]] ∧
       (requestOf [0x01, 0, 0, 1]).desc[3] ≠ 0) ∧
    unusedNotZero (latchOf (requestOf [0x06, 0, 0, 0, 0, 0, 0, 0, 0, 0, 0, 0x80]).desc) :=
  ⟨by decide, .inr (.inr (.inl (by decide)))⟩

theorem witness_Acceptance :
    (let s := offered .epd .uninit [0x10]
     s.mode = .uninit ∧ s.pos = .idle ∧ s.bus = [] ∧ s.send = none ∧ s.host = [requestOf [0x10]]) ∧
    (let s := offered .epd .idle [0x10]
     (∃ t, step s = .next t ∧ t.host = []) ∧ s.mode = .idle ∧ s.pos = .idle ∧ s.bus = [] ∧ s.send = none) := by
  refine ⟨by decide, ⟨_, rfl, rfl⟩, by decide⟩

/-- An instance after Diag, its Halt event next. -/
def halting (v : Variant) : State := at' v .writing (.halting .adapterRange)

theorem witness_HaltedIsTerminal :
    (at' .epd .halted .idle).mode = .halted ∧
    ∃ t, step (halting .epd) = .next t ∧ t.haltCause ≠ (halting .epd).haltCause := by
  refine ⟨rfl, _, rfl, by decide⟩

theorem witness_EveryHaltIsPrecise :
    ((halting .goled).mode ≠ .halted ∧ ∃ t, step (halting .goled) = .next t ∧ t.mode = .halted) ∧
    (let s := at' .goled .idle (.raising .illegalArgument)
     s.pos ≠ .halting .illegalArgument ∧
       ∃ t, step s = .next t ∧ t.pos = .halting .illegalArgument ∧ t.trace = s.trace ++ [.diag]) := by
  refine ⟨⟨by decide, _, rfl, rfl⟩, by decide, _, rfl, rfl, rfl⟩

theorem witness_FailingOperationHalts :
    (∀ ops ∈ ([[.dc .cmd], [.cs .assert], [.xfer 1 none]] : List (List BusOp)),
      let s := failing .epd .writing .epdRows ops
      s.mode ≠ .halted ∧ oracleFails s = some true ∧ s.bus = ops) ∧
    (∀ p ∈ ([.resetLow, .resetHigh, .sample .commit, .resetHold, .resetSettle, .pause 1 [], .poll .commit, .goledPre,
        .goledPost, .woledDelay1, .woledDelay2, .respond 200] : List Pos),
      let s := failing .epd .resetting p []
      s.mode ≠ .halted ∧ oracleFails s = some true ∧ s.bus = [] ∧ s.send = none ∧ s.pos = p) ∧
    (let s := failing .epd .writing .epdRows []
     s.bus = [] ∧ wireVariant (.epdActivateUpdate []) = some s.cfg.variant ∧ (Instr.epdActivateUpdate []).wf = true) := by
  decide

theorem witness_IllegalStateByMode :
    isRequest .rdWidth = true ∧ isRequest .init = true ∧ Instr.rdWidth ≠ .init ∧ (at' .epd .uninit .idle).mode = .uninit ∧
    (idle .epd).mode = .idle := by decide

theorem witness_ArgumentLimits :
    (idle .goled).mode = .idle ∧
    65535 < (0xFFFF : Half).toNat + (1 : Half).toNat ∧ 65535 < (1 : Half).toNat + (0xFFFF : Half).toNat ∧
    65535 < (8 : Half).toNat + 8 * (8191 : Half).toNat ∧ 65535 < (65528 : Half).toNat + 8 := by decide

theorem witness_ColorFields :
    (∀ v ∈ [Variant.epd, .goled, .woled], (idle v).mode = .idle) ∧
    (7 : Half).toNat + 8 * (8191 : Half).toNat ≤ 65535 ∧ (65527 : Half).toNat + 8 ≤ 65535 ∧
    (idle .epd).cfg.variant ≠ .goled ∧ (idle .woled).cfg.variant ≠ .goled ∧ (idle .goled).cfg.variant = .goled ∧
    1 < (2 : Byte).toNat ∧ (1 : Byte).toNat ≤ 1 := by decide

theorem witness_DegenerateWindows :
    (∀ v ∈ [Variant.epd, .goled, .woled], (idleFault v).mode = .idle ∧ (idleFault v).cfg.degenerateExtent = .fault ∧
      (idle v).cfg.degenerateExtent = .empty) ∧
    (0xFFFF : Half).toNat + (0 : Half).toNat ≤ 65535 ∧
    -- EPD: width 7 is degenerate and 8 is not; x = 200 is and 199 is not. WOLED: height 7 and 8.
    ((7 : Half).toNat < 8 ∧ ¬(8 : Half).toNat < 8 ∧ 200 ≤ (200 : Half).toNat ∧ ¬200 ≤ (199 : Half).toNat) ∧
    -- GOLED: y = 128, width 2, height 1.
    ((127 : Half).toNat < 128 ∧ (128 : Half).toNat = 128 ∧ 2 ≤ (2 : Half).toNat ∧ (1 : Half).toNat ≠ 0) ∧
    -- A cell of DRAW_TEXT at the last cursor that is on the panel, and at the first that is not.
    (∀ v ∈ [Variant.epd, .goled, .woled], ∀ cx ∈ ([127, 128, 199, 200] : List Int),
      let s := { idleFault v with mode := .writing, src := .text, text := ⟨cx, 0, 0, 7, 7⟩, latch := ⟨6, 0, 0, 0, 0, 128, 1, 0⟩ }
      s.mode = .writing ∧ s.src = .text ∧ 0 ≤ s.text.cx ∧ s.latch.y.toNat = 128) := by decide

theorem witness_PowerOn : (tcfg .epd).wf = true ∧ (tcfg .goled).wf = true ∧ (tcfg .woled).wf = true := by decide

theorem witness_ConfigurationRegisters :
    (∃ t, step (at' .epd .uninit .idle) = .next t) ∧
    ∀ v ∈ [Variant.epd, .goled, .woled], (idle v).mode = .idle ∧ (idle v).cfg.variant = v := by
  refine ⟨⟨_, rfl⟩, by decide⟩

theorem witness_RequestFrame :
    (isRequest (.clearFrame 1) = true ∧ ∃ t, exec (.clearFrame 1) (idle .woled) = .next t ∧ t.mode = .writing) ∧
    (idle .woled).cfg.variant ≠ .epd ∧ (idle .woled).cfg.variant ≠ .goled ∧ (idle .epd).cfg.variant ≠ .woled ∧
    ∀ fg bg x y n, Instr.clearFrame 1 ≠ .drawText fg bg x y n := by
  refine ⟨⟨by decide, _, rfl, rfl⟩, by decide, by decide, by decide, fun _ _ _ _ _ h => nomatch h⟩

theorem witness_InitBegins :
    ∀ v ∈ [Variant.epd, .goled, .woled], (at' v .uninit .idle).mode = .uninit ∧ (at' v .uninit .idle).cfg.variant = v := by
  decide

theorem witness_InitOnWoled :
    let s := at' .woled .uninit .idle
    s.mode = .uninit ∧ s.cfg.variant = .woled ∧ s.bus = [] ∧ s.send = none ∧ quiet 17 s :=
  ⟨rfl, rfl, rfl, rfl, quiet_at _ _ rfl⟩

theorem witness_InitOnGoled :
    let s := at' .goled .uninit .idle
    s.mode = .uninit ∧ s.cfg.variant = .goled ∧ s.cfg.goledInitBlock ≠ [] ∧ (∀ k ∈ s.cfg.goledInitBlock, k ≠ []) ∧
      s.bus = [] ∧ s.send = none ∧ s.oracle = none := by decide

theorem witness_InitOnEpd :
    let s := { at' .epd .uninit .idle with busyIn := [.low, .high] }
    s.mode = .uninit ∧ s.cfg.variant = .epd ∧ s.cfg.wf = true ∧ s.bus = [] ∧ s.send = none ∧ s.oracle = none ∧
      s.busyIn = List.replicate (initWaits s.cfg.epdInitSeq) (busyClearLevel s.cfg) ++ [.high] := by decide

theorem witness_EpdCommandsStart :
    let s := at' .epd .initializing (.epdInit [])
    s.mode ≠ .halted ∧ s.cfg.variant = .epd ∧ s.bus = [] ∧ quiet 1 s :=
  ⟨by decide, rfl, rfl, quiet_at _ _ rfl⟩

theorem witness_OledCommandsStart :
    ∀ v ∈ [Variant.goled, .woled], let s := at' v .initializing .idle
      s.mode ≠ .halted ∧ s.bus = [] ∧ quiet 1 s ∧ ([0xAF] : List Byte) ≠ [] ∧ s.cfg.variant = v := by
  intro v _
  exact ⟨Mode.noConfusion, rfl, quiet_at _ _ rfl, by decide, rfl⟩

theorem witness_PixelBytesStart :
    ∀ s ∈ [epdLast, goledLast, woledLast], s.mode ≠ .halted ∧ s.bus = [] ∧ s.oracle = none := by decide

theorem witness_WireCommandSendsItsBytes :
    let s := at' .epd .initializing (.epdInit [])
    let i : Instr := .epdSetRamYWindow [1, 2, 3, 4]
    wireVariant i = some s.cfg.variant ∧ isPixelData i = false ∧ i.wf = true ∧ s.mode ≠ .halted ∧ s.bus = [] ∧
      quiet (wordEvents s.cfg.framing (encode i).word).length s :=
  ⟨rfl, rfl, rfl, by decide, rfl, quiet_at _ _ rfl⟩

theorem witness_PixelByteReachesItsAddress :
    (pixelAddr epdLast = some 4999 ∧ wireVariant (.epdPixelData 1) = some epdLast.cfg.variant) ∧
    (pixelAddr goledLast = some 8191 ∧ wireVariant (.goledPixelData 1) = some goledLast.cfg.variant) ∧
    (pixelAddr woledLast = some 1023 ∧ wireVariant (.woledPixelData 1) = some woledLast.cfg.variant) ∧
    ∀ s ∈ [epdLast, goledLast, woledLast], s.mode ≠ .halted ∧ s.bus = [] ∧ s.oracle = none := by decide

theorem witness_ModelStops :
    (let s := { epdLast with epd := ⟨192, 8, 199, 199, 200, 0, 0⟩ }
     pixelAddr s = none ∧ wireVariant (.epdPixelData 1) = some s.cfg.variant ∧ s.mode ≠ .halted ∧ s.bus = [] ∧
       s.oracle = none) ∧
    (wireVariant .woledDisplayOn = some .woled ∧ epdLast.cfg.variant ≠ .woled ∧ epdLast.mode ≠ .halted) := by decide

/-- The states of the window witnesses meet the invariant. -/
theorem inv_epdLast : Inv epdLast :=
  ⟨by decide, by decide, by decide, by decide, by decide, by decide, by decide, by decide, by decide, by decide, by decide,
    ⟨⟨by decide, by decide, by decide, by decide, by decide⟩, by decide, by decide, by decide, by decide, by decide⟩,
    by decide, (fun _ h => nomatch h), by decide, by decide⟩

theorem inv_goledLast : Inv goledLast :=
  ⟨by decide, by decide, by decide, by decide, by decide, by decide, by decide, by decide, by decide, by decide, by decide,
    ⟨⟨by decide, by decide, by decide⟩, by decide, by decide, by decide, by decide⟩, by decide, (fun _ h => nomatch h), by decide, by decide⟩

theorem inv_woledLast : Inv woledLast :=
  ⟨by decide, by decide, by decide, by decide, by decide, by decide, by decide, by decide, by decide, by decide, by decide,
    ⟨⟨by decide, by decide, by decide⟩, by decide, by decide, by decide, by decide, by decide⟩, by decide,
    (fun _ h => nomatch h), by decide, by decide⟩

/-- An EPD instance about to go on after its initial `0x3C`, with `0x21` next. -/
def epdInitLast : State :=
  { at' .epd .initializing (.epdInit [.cmd 0x21 [0x40]]) with bus := [.cs .deassert], pins := ⟨.assert, .cmd, .high⟩ }

theorem inv_epdInitLast : Inv epdInitLast :=
  ⟨by decide, by decide, by decide, by decide, by decide, by decide, by decide, by decide, by decide, by decide, by decide,
    trivial, by decide, (fun _ h => nomatch h), by decide, by decide⟩

/-- EPD_INIT_SEQ may give `0x20` a payload; INIT then sends it as a data burst (41_epaper R201, R205). -/
theorem test_init_activate_with_payload :
    initActionOk (.cmd 0x20 [0x01]) = true ∧
    let s := epdInitNext [.cmd 0x20 [0x01]] (at' .epd .initializing .resetSettle)
    ∃ t, Sys2Proof.core.run 8 s = .next t ∧ t.mode = .idle ∧
      t.trace = [.dc .cmd, .cs .assert, .xfer 0x20, .cs .deassert, .dc .data, .cs .assert, .xfer 0x01, .cs .deassert] :=
  ⟨by decide, _, rfl, rfl, rfl⟩

/-- An EPD instance at the end of a row's X pointer, the Y pointer next. -/
def epdRowPointer : State :=
  { at' .epd .writing .epdYPointer with
    bus := [.cs .deassert], pins := ⟨.assert, .data, .high⟩, epd := ⟨0, 8, 7, 199, 199, 0, 0⟩ }

theorem inv_epdRowPointer : Inv epdRowPointer :=
  ⟨by decide, by decide, by decide, by decide, by decide, by decide, by decide, by decide, by decide, by decide, by decide,
    ⟨⟨by decide, by decide, by decide, by decide, by decide⟩, by decide, by decide⟩, by decide, (fun _ h => nomatch h),
    by decide, by decide⟩

/-- An EPD instance between the opcode's transaction and the payload's of one command. -/
def epdBetween : State :=
  { at' .epd .initializing (.epdInit []) with bus := sendDataOps .perByte [0x03], pins := ⟨.deassert, .cmd, .high⟩ }

theorem inv_epdBetween : Inv epdBetween :=
  ⟨by decide, by decide, by decide, by decide, by decide, by decide, by decide, by decide, by decide, by decide, by decide,
    trivial, by decide, (fun _ h => nomatch h), by decide, by decide⟩

/-- An instance standing at the wire command `w`, its algorithm at `p`. -/
def standing (v : Variant) (m : Mode) (p : Pos) (w : WireWord) : State := { at' v m p with send := some w }

theorem inv_standing :
    Inv (standing .epd .busyUpdating (.sample .commit) ⟨[0x20], []⟩) ∧
    Inv (standing .goled .initializing (.goledBlock []) ⟨[0xAF], []⟩) ∧
    Inv (standing .woled .initializing (.woledInit []) ⟨[0xAF], []⟩) := by
  refine ⟨⟨by decide, by decide, by decide, by decide, by decide, by decide, by decide, by decide, by decide, by decide,
    by decide, trivial, by decide, ?_, by decide, by decide⟩, ⟨by decide, by decide, by decide, by decide, by decide, by decide, by decide,
    by decide, by decide, by decide, by decide, trivial, by decide, ?_, by decide, by decide⟩, ⟨by decide, by decide, by decide, by decide,
    by decide, by decide, by decide, by decide, by decide, by decide, by decide, trivial, by decide, ?_, by decide, by decide⟩⟩ <;>
  · intro w h
    cases h
    decide

theorem witness_StepEmitsAtMostOneEvent :
    (∃ t, step (at' .goled .initializing .goledPost) = .next t ∧ t.trace = [.delay 2]) ∧
    (Inv epdLast ∧ ∃ t, step epdLast = .next t ∧ t.trace = epdLast.trace) ∧
    ∃ t, step (offered .epd .idle [0x07]) = .next t ∧ t.trace = [] :=
  ⟨⟨_, rfl, rfl⟩, ⟨inv_epdLast, _, rfl, rfl⟩, _, rfl, rfl⟩

theorem inv_windowDue : Inv (standing .goled .writing .goledRowWindow ⟨[0x15, 0x00, 0x3F], []⟩) := by
  refine ⟨by decide, by decide, by decide, by decide, by decide, by decide, by decide, by decide, by decide, by decide,
    by decide, ⟨by decide, by decide, by decide⟩, by decide, ?_, by decide, by decide⟩
  intro w h
  cases h
  decide

/-- Bytes outside the GOLED_INIT_BLOCK break the invariant while INIT runs (30_encoding R129). -/
theorem test_init_block_only :
    sendOk (standing .goled .initializing (.goledBlock []) ⟨[0x12], []⟩) ⟨[0x12], []⟩ = false ∧
    initRestOk (tcfg .goled) (.goledBlock [[0x12]]) = false ∧ initRestOk (tcfg .goled) (.goledBlock [[0xAF]]) = true := by
  decide

theorem witness_OpcodeSetsAreClosed :
    (let s := standing .epd .busyUpdating (.sample .commit) ⟨[0x20], []⟩
     Inv s ∧ s.send = some ⟨[0x20], []⟩ ∧ s.cfg.variant = .epd) ∧
    (let s := standing .goled .initializing (.goledBlock []) ⟨[0xAF], []⟩
     Inv s ∧ s.send = some ⟨[0xAF], []⟩ ∧ s.cfg.variant = .goled ∧ s.mode = .initializing) ∧
    (let s := standing .goled .writing .goledRowWindow ⟨[0x15, 0x00, 0x3F], []⟩
     Inv s ∧ s.send = some ⟨[0x15, 0x00, 0x3F], []⟩ ∧ s.cfg.variant = .goled ∧ s.mode ≠ .initializing) ∧
    (let s := standing .woled .initializing (.woledInit []) ⟨[0xAF], []⟩
     Inv s ∧ s.send = some ⟨[0xAF], []⟩ ∧ s.cfg.variant = .woled) :=
  ⟨⟨inv_standing.1, rfl, rfl⟩, ⟨inv_standing.2.1, rfl, rfl, rfl⟩, ⟨inv_windowDue, rfl, rfl, by decide⟩, inv_standing.2.2, rfl, rfl⟩

theorem witness_InitOnlyCommands :
    (Inv epdInitLast ∧ epdInitLast.mode ≠ .halted ∧ epdInitLast.cfg.variant = .epd ∧
      ∃ t, step epdInitLast = .next t ∧ t.send = some ⟨[0x21], [0x40]⟩) ∧
    (Inv epdRowPointer ∧ epdRowPointer.mode ≠ .halted ∧ epdRowPointer.cfg.variant = .epd ∧
      ∃ t, step epdRowPointer = .next t ∧ t.send = some ⟨[0x4F], [0xC7, 0x00]⟩) :=
  ⟨⟨inv_epdInitLast, by decide, rfl, _, rfl, by decide⟩, inv_epdRowPointer, by decide, rfl, _, rfl, by decide⟩

theorem witness_FreeDraws :
    (((0 : Int) ≤ 255 ∧ (255 : Int) ≤ 255) ∧ (255 : Int) < 256 ∧ (-1 : Int) < 0 ∧ (65535 : Int) < 65536 ∧
      (65536 : Int) ≤ 65536) ∧
    (let s := { epdLast with changed := [true], ports := ⟨⟨0, []⟩, [], [0x41]⟩ }
     s.changed = true :: [] ∧ s.src = .callback) ∧
    (let s := { at' .goled .writing .readChar with changed := [false, true], src := .text, ports := ⟨⟨0, []⟩, [], [0x41]⟩ }
     s.changed = false :: [true] ∧ s.src = .text ∧ s.ports.str[s.text.i]? = some 0x41) ∧
    colorOk .woled 1 = true ∧ colorOk .goled 0xFF = true := by decide

theorem witness_NibblePacker : (0xF : Color).toNat ≤ 15 ∧ packNibbles 0xF 0xF = 0xFF := by decide

theorem witness_EpdPacksEightPixels :
    epdLast.mode = .writing ∧ epdLast.pos = .epdPixel ∧ epdLast.bus = [] ∧ epdLast.send = none ∧ epdLast.sr = 0 ∧
    epdLast.epd.k = 0 ∧ epdLast.changed = [] ∧
    ∀ k : Nat, k < 8 → pix epdLast (epdLast.epd.xa + 8 * epdLast.epd.g + k) epdLast.epd.j = some 0 :=
  ⟨rfl, rfl, rfl, rfl, rfl, rfl, rfl, fun _ _ => rfl⟩

theorem witness_GoledPacksTwoPixels :
    goledLast.mode = .writing ∧ goledLast.pos = .goledLeft ∧ goledLast.bus = [] ∧ goledLast.send = none ∧
    goledLast.changed = [] ∧ pix goledLast (2 * goledLast.goled.c) goledLast.goled.r = some 0 ∧
    pix goledLast (2 * goledLast.goled.c + 1) goledLast.goled.r = some 0 := ⟨rfl, rfl, rfl, rfl, rfl, rfl, rfl⟩

theorem witness_WoledPacksEightPixels :
    woledLast.mode = .writing ∧ woledLast.pos = .woledPixel ∧ woledLast.bus = [] ∧ woledLast.send = none ∧
    woledLast.sr = 0 ∧ woledLast.woled.off = 7 ∧ woledLast.changed = [] ∧
    ∀ o : Nat, o < 8 → pix woledLast woledLast.woled.c (8 * woledLast.woled.p + o) = some 0 :=
  ⟨rfl, rfl, rfl, rfl, rfl, rfl, rfl, fun _ _ => rfl⟩

/-- EMPTY admits every window of these limits; FAULT one whose last pixel is the panel's. -/
theorem witness_EpdFrameWriteBegins :
    (idle .epd).mode = .idle ∧ (idle .epd).cfg.variant = .epd ∧ (idle .epd).cfg.degenerateExtent = .empty ∧
    (idleFault .epd).mode = .idle ∧ (idleFault .epd).cfg.variant = .epd ∧
    (199 : Half).toNat + (8 : Half).toNat ≤ 65535 ∧ (199 : Half).toNat + (1 : Half).toNat ≤ 65535 ∧
    8 ≤ (8 : Half).toNat ∧ 0 < (1 : Half).toNat ∧ (199 : Half).toNat < 200 := by decide

theorem witness_GoledFrameWriteBegins :
    (idle .goled).mode = .idle ∧ (idle .goled).cfg.variant = .goled ∧ (idle .goled).cfg.degenerateExtent = .empty ∧
    (idleFault .goled).mode = .idle ∧ (127 : Half).toNat + (2 : Half).toNat ≤ 65535 ∧ (127 : Half).toNat < 128 ∧
    (128 : Half).toNat ≤ 128 ∧ 2 ≤ (2 : Half).toNat ∧ 0 < (1 : Half).toNat := by decide

theorem witness_GoledGuardIsANoOp :
    (idle .goled).mode = .idle ∧ (idle .goled).cfg.variant = .goled ∧ 64 ≤ (128 : Half).toNat / 2 ∧
    128 < (129 : Half).toNat ∧ (1 : Half).toNat / 2 = 0 ∧ (0 : Half).toNat = 0 ∧
    (129 : Half).toNat + (128 : Half).toNat ≤ 65535 := by decide

theorem witness_WoledFrameWriteBegins :
    (idle .woled).mode = .idle ∧ (idle .woled).cfg.variant = .woled ∧ (idle .woled).cfg.degenerateExtent = .empty ∧
    (idleFault .woled).mode = .idle ∧ 0 < (1 : Half).toNat ∧ 8 ≤ (8 : Half).toNat ∧ (127 : Half).toNat < 128 ∧
    (63 : Half).toNat < 64 ∧ (127 : Half).toNat + (1 : Half).toNat ≤ 65535 := by decide

theorem witness_ClearFrameBegins :
    ∀ v ∈ [Variant.epd, .goled, .woled], (idle v).mode = .idle ∧ (idle v).cfg.variant = v ∧ (1 : Byte).toNat ≤ 1 := by
  decide

theorem witness_EpdFrameWriteFillsTheWindow :
    let s := { idle .epd with busyIn := [.low, .high] }
    let y : Half := 199
    let h : Half := 2
    s.mode = .idle ∧ s.cfg.variant = .epd ∧ s.bus = [] ∧ s.send = none ∧ s.oracle = none ∧ s.changed = [] ∧ y.toNat < 200 ∧
      0 < h.toNat ∧ y.toNat + h.toNat ≤ 65535 ∧
      s.busyIn = List.replicate (min h.toNat (200 - y.toNat)) (busyClearLevel s.cfg) ++ [.high] := by decide

theorem witness_GoledFrameWriteFillsTheWindow :
    let s := idle .goled
    s.mode = .idle ∧ s.cfg.variant = .goled ∧ s.bus = [] ∧ s.send = none ∧ s.oracle = none ∧ s.changed = [] ∧
      (127 : Half).toNat + (2 : Half).toNat ≤ 65535 ∧ 2 ≤ (2 : Half).toNat ∧ (127 : Half).toNat < 128 := by decide

theorem witness_WoledFrameWriteFillsTheWindow :
    let s := idle .woled
    s.mode = .idle ∧ s.cfg.variant = .woled ∧ s.bus = [] ∧ s.send = none ∧ s.oracle = none ∧ s.changed = [] ∧ 8 ≤ (8 : Half).toNat ∧
      (63 : Half).toNat + (8 : Half).toNat ≤ 65535 ∧ (63 : Half).toNat < 64 ∧ (127 : Half).toNat < 128 ∧
      0 < (1 : Half).toNat := by decide

theorem witness_ClearFrameFillsThePanel :
    (let s := { idle .epd with busyIn := List.replicate 200 Level.low ++ [Level.high] }
     s.mode = .idle ∧ s.bus = [] ∧ s.send = none ∧ s.oracle = none ∧ busyClearLevel s.cfg = .low ∧ (1 : Byte).toNat ≤ 1) ∧
    ∀ v ∈ [Variant.goled, .woled], (idle v).mode = .idle ∧ (idle v).bus = [] ∧ (idle v).send = none ∧
      (idle v).oracle = none ∧ (idle v).cfg.variant ≠ .epd := by
  refine ⟨⟨rfl, rfl, rfl, rfl, rfl, by decide⟩, by decide⟩

/-- EPD: width 7 over one row, height 0, and the first x and y off the panel; GOLED: y = 128; WOLED: each edge. -/
theorem witness_DegenerateWindowsSendOnlyTheirCommands :
    (let s := { idle .epd with busyIn := [.low, .high] }
     s.mode = .idle ∧ s.cfg.variant = .epd ∧ s.bus = [] ∧ s.send = none ∧ s.oracle = none ∧
       s.cfg.degenerateExtent = .empty ∧ (7 : Half).toNat < 8 ∧ (0 : Half).toNat = 0 ∧ 200 ≤ (200 : Half).toNat ∧
       s.busyIn = List.replicate (min (1 : Half).toNat (200 - (199 : Half).toNat)) (busyClearLevel s.cfg) ++ [.high]) ∧
    (let s := idle .goled
     s.mode = .idle ∧ s.cfg.variant = .goled ∧ s.bus = [] ∧ s.send = none ∧ s.oracle = none ∧
       s.cfg.degenerateExtent = .empty ∧ (127 : Half).toNat < 128 ∧ (128 : Half).toNat = 128 ∧ 2 ≤ (2 : Half).toNat) ∧
    (let s := idle .woled
     s.mode = .idle ∧ s.cfg.variant = .woled ∧ s.bus = [] ∧ s.send = none ∧ s.oracle = none ∧
       s.cfg.degenerateExtent = .empty) ∧
    ((0 : Half).toNat = 0 ∧ (7 : Half).toNat < 8 ∧ 128 ≤ (128 : Half).toNat ∧ 64 ≤ (64 : Half).toNat) := by decide

/-- A rectangle of 2 by 1 at (2, 3) over a buffer of length 1: its second pixel is beyond the buffer. -/
theorem witness_BufferAdapter :
    let s := { at' .goled .writing .goledRight with
      src := .buffer, latch := ⟨0x03, 0, 0, 0, 2, 3, 2, 1⟩, ports := ⟨⟨0, []⟩, [5], []⟩, goled := ⟨1, 1, 1, 3, 3, 1, 0, 0⟩ }
    s.src = .buffer ∧ adapterIndex (window s) 1 2 3 = some 0 ∧ adapterIndex (window s) 1 3 3 = none ∧
      adapterIndex (window s) 2 3 3 = some 1 ∧ adapterIndex (window s) 2 4 3 = none ∧
      adapterIndex (window s) 2 1 3 = none ∧ pix s 3 3 = none ∧ s.mode ≠ .halted ∧ s.bus = [] ∧ s.send = none ∧
      s.pos = .goledRight ∧ (3 : Int) = 2 * s.goled.c + 1 ∧ (3 : Int) = s.goled.r := by decide

/-- A cell at (3, 8) on GOLED: the left query of its first pair, (2, 8), is left of the cursor (44_text R336). The last
pixel of the cell is its last in range. -/
theorem witness_BufferAdapterOfACell :
    let s := { at' .goled .writing .goledLeft with
      src := .text, latch := ⟨0x06, 1, 0, 0, 3, 8, 1, 0⟩, text := ⟨3, 0, 0x41, 7, 7⟩, goled := ⟨1, 4, 4, 15, 8, 1, 0, 0⟩ }
    s.src = .text ∧ (8 : Int) < 16 ∧ (15 : Int) < 16 ∧ (10 : Int) < 11 ∧ pix s 10 15 = some 0 ∧ pix s 11 15 = none ∧
      pix s 2 8 = none ∧ s.mode ≠ .halted ∧ s.bus = [] ∧ s.send = none ∧
      s.pos = .goledLeft ∧ (2 : Int) = 2 * s.goled.c ∧ (8 : Int) = s.goled.r := by decide

theorem witness_BufferWriteEqualsCallbackWrite :
    let s := { idle .goled with ports := ⟨⟨5, []⟩, [5], []⟩ }
    s.mode = .idle ∧ s.bus = [] ∧ s.send = none ∧ s.host = [] ∧ s.changed = [] ∧
      (∀ px py i c, adapterIndex ⟨2, 3, 2, 1⟩ s.ports.buf.length px py = some i → s.ports.buf[i]? = some c →
        pixelFnAt s.ports.f px py = c) ∧
      ∃ t u, exec (.setFrameBuffer 2 3 2 1) s = .next t ∧ Sys2Proof.core.run 1 t = .next u ∧
        u.haltCause ≠ some .adapterRange ∧ u.pos ≠ .halting .adapterRange := by
  refine ⟨rfl, rfl, rfl, rfl, rfl, ?_, _, _, rfl, rfl, by decide, by decide⟩
  intro px py i c _ hc
  match i, hc with
  | 0, hc => exact Option.some.inj hc

theorem witness_BusyWaitPolls :
    (let s := { at' .epd .busyUpdating (.sample .commit) with busyIn := [.high, .high, .low] }
     s.mode ≠ .halted ∧ s.pos = .sample .commit ∧ s.bus = [] ∧ s.send = none ∧ quiet 3 s ∧
       s.busyIn = List.replicate 2 s.cfg.busyActiveLevel ++ busyClearLevel s.cfg :: []) ∧
    (let s := { at' .epd .waitPointer (.sample .pointer) with busyIn := [.high] }
     quiet 2 s ∧ s.busyIn = List.replicate 1 s.cfg.busyActiveLevel ++ []) :=
  ⟨⟨by decide, rfl, rfl, rfl, quiet_at _ _ rfl, rfl⟩, quiet_at _ _ rfl, rfl⟩

theorem witness_BusyIsSampledOnlyInAWait :
    (let s := { at' .epd .busyUpdating (.sample .commit) with busyIn := [.high] }
     ∃ t, step s = .next t ∧ t.busyIn = []) ∧
    (Inv woledLast ∧ woledLast.cfg.variant ≠ .epd ∧ ∃ t, step woledLast = .next t) :=
  ⟨⟨_, rfl, rfl⟩, inv_woledLast, by decide, _, rfl⟩

theorem witness_DisplayFrame :
    (idle .goled).mode = .idle ∧ (idle .goled).cfg.variant ≠ .epd ∧
    (let s := { idle .epd with busyIn := [.high, .low] }
     s.mode = .idle ∧ s.cfg.variant = .epd ∧ s.bus = [] ∧ quiet 6 s ∧
       s.busyIn = List.replicate 1 s.cfg.busyActiveLevel ++ busyClearLevel s.cfg :: []) :=
  ⟨rfl, by decide, rfl, rfl, rfl, quiet_at _ _ rfl, rfl⟩

theorem witness_FrameMemoryChangesOnlyAtPixelTransfers :
    let s := { epdLast with bus := [.xfer 7 (some (24, 199))] }
    ∃ t, step s = .next t ∧ t.fm = [(4999, 7)] := ⟨_, rfl, rfl⟩

theorem witness_VisibleImageChangesOnlyAtCommit :
    (let s := { at' .epd .busyUpdating (.sample .commit) with busyIn := [.low], fm := [(0, 1)] }
     s.cfg.variant = .epd ∧ ∃ t, step s = .next t ∧ t.vis = [(0, 1)]) ∧
    (woledLast.cfg.variant ≠ .epd ∧ ∃ t, step woledLast = .next t) := ⟨⟨rfl, _, rfl, rfl⟩, by decide, _, rfl⟩

theorem witness_DrawTextBegins :
    (idle .goled).mode = .idle ∧ (7 : Half).toNat + 8 * (8191 : Half).toNat ≤ 65535 ∧ (65527 : Half).toNat + 8 ≤ 65535 ∧
    (0 : Half).toNat + 8 * (0 : Half).toNat ≤ 65535 ∧ (1 : Byte).toNat ≤ 1 ∧
    (let s := { idle .goled with ports := ⟨⟨0, []⟩, [], [0x41]⟩ }
     s.bus = [] ∧ s.send = none ∧ s.changed = [] ∧ s.ports.str[0]? = some 0x41) := by decide

theorem witness_GlyphExpansionFillsTheBuffer :
    let s := at' .goled .writing .readGlyph
    s.mode = .writing ∧ s.pos = .readGlyph ∧ s.bus = [] ∧ s.send = none ∧ s.text.gr = 0 ∧ s.text.gc = 0 ∧ s.changed = [] := by
  decide

theorem witness_TextCells :
    (let s := { at' .woled .writing .readChar with
       ports := ⟨⟨0, []⟩, [], [0x41, 0x42]⟩, text := ⟨8, 1, 0x41, 7, 7⟩ }
     s.mode ≠ .halted ∧ s.pos = .readChar ∧ s.bus = [] ∧ s.send = none ∧ s.changed = [] ∧
       s.ports.str[s.text.i]? = some 0x42) ∧
    let s := { at' .woled .writing .woledNextColumn with
      src := .text, latch := ⟨0x06, 1, 0, 0, 0, 0, 2, 0⟩, text := ⟨8, 0, 0x41, 7, 7⟩ }
    s.src = .text ∧ (15 : Int) = s.text.cx + (7 : Nat) ∧ (16 : Int) ≥ s.text.cx + 8 ∧ s.text.i + 1 < s.latch.w.toNat ∧
      s.latch.w.toNat ≤ ({ s with text := { s.text with i := 1 } } : State).text.i + 1 := by decide

theorem witness_EveryStepKeepsTheInvariant : Inv epdLast ∧ ∃ t, step epdLast = .next t := ⟨inv_epdLast, _, rfl⟩

theorem witness_InvariantStatesNeverStop : Inv goledLast ∧ Inv woledLast ∧ Inv epdRowPointer :=
  ⟨inv_goledLast, inv_woledLast, inv_epdRowPointer⟩

theorem witness_ModeMoves : Inv epdInitLast ∧ ∃ t, step epdInitLast = .next t := ⟨inv_epdInitLast, _, rfl⟩

theorem witness_BoundsProperty :
    (Inv epdLast ∧ epdLast.pos = .epdPixel) ∧ (Inv goledLast ∧ goledLast.pos = .goledLeft) ∧
    (Inv woledLast ∧ woledLast.pos = .woledPixel) := ⟨⟨inv_epdLast, rfl⟩, ⟨inv_goledLast, rfl⟩, inv_woledLast, rfl⟩

theorem witness_PinsFollowTheTrace :
    (Inv epdLast ∧ epdLast.mode ≠ .halted ∧ epdLast.bus = [] ∧ ∀ code, epdLast.pos ≠ .halting code) ∧
    (Inv epdBetween ∧ epdBetween.mode ≠ .halted ∧ epdBetween.bus = .dc .data :: epdBetween.bus.tail ∧
      ∀ code, epdBetween.pos ≠ .halting code) ∧
    (∃ t, step (at' .epd .resetting .resetHigh) = .next t ∧ t.pins.rst ≠ (at' .epd .resetting .resetHigh).pins.rst) :=
  ⟨⟨inv_epdLast, by decide, rfl, fun _ h => nomatch h⟩, ⟨inv_epdBetween, by decide, rfl, fun _ h => nomatch h⟩, _, rfl, by decide⟩

end Sys2Proof.Tests
end

section
/-! SUPPORT and PROOFS. The statements of 00_scope: a wire command's events from its first to its last (O26), free draws
(O31), and how the EPD and WOLED frame writes begin (O36, O39). -/

namespace Sys2Proof.Machine

/-! ### A wire command from its first event to its last -/

/-- The operations of one wire command: its command-level transaction, then its data-level ones (30_encoding R122). -/
def wordOps (fr : Framing) (w : WireWord) : List BusOp := sendCmdOps w.cmd ++ sendDataOps fr w.data

/-- A wire command that is no pixel byte issues the operations of its encoded word, on the wire of its variant. -/
theorem exec_eq_issue_wordOps {i : Instr} {v : Variant} (hv : wireVariant i = some v) (hp : isPixelData i = false)
    (s : State) : exec i s = issue v (wordOps s.cfg.framing (encode i).word) s := by
  cases i with
  | init | setFrameCallback | setFrameBuffer | clearFrame | displayFrame | drawText | rdWidth | rdHeight | rdPpb | rdLight
  | rdDark => simp [wireVariant, encode, descriptor] at hv
  | epdPixelData | goledPixelData | woledPixelData => simp [isPixelData] at hp
  | goledInitBlock bytes =>
    obtain rfl : Variant.goled = v := Option.some.inj hv
    simp [exec, execGoledInitBlock, wordOps, encode, sendDataOps]
  | _ =>
    obtain rfl := Option.some.inj hv
    rfl

/-- A well-formed instruction that is no pixel byte has command-level bytes. -/
theorem encode_cmd_ne_nil {i : Instr} (hp : isPixelData i = false) (hw : i.wf = true) : (encode i).word.cmd ≠ [] := by
  cases i with
  | goledInitBlock bytes => simpa [Instr.wf, encode] using hw
  | epdPixelData | goledPixelData | woledPixelData => simp [isPixelData] at hp
  | _ => exact List.cons_ne_nil _ _

/-- The events of a data burst, one transaction a byte: those of its first byte, then the rest (00_scope R13). -/
theorem dataEvents_perByte_cons (b : Byte) (bytes : List Byte) :
    dataEvents .perByte (b :: bytes) = [.dc .data, .cs .assert, .xfer b, .cs .deassert] ++ dataEvents .perByte bytes := rfl

/-- The operations of a non-empty payload, sent as FRAMING says, leave its events in the trace, chip-select deasserted and
DC at the data level (00_scope R13). -/
theorem applyOps_sendDataOps (fr : Framing) {bytes : List Byte} (hne : bytes ≠ []) (s : State) :
    applyOps (sendDataOps fr bytes) s =
      { s with
        bus := []
        trace := s.trace ++ dataEvents fr bytes
        pins := { s.pins with cs := .deassert, dc := .data }
        ops := s.ops + (dataEvents fr bytes).length } := by
  obtain ⟨b, bytes, rfl⟩ := List.exists_cons_of_ne_nil hne
  cases fr with
  | perBurst => simpa [sendDataOps, dataEvents, applyOps] using applyOps_transaction .data (b :: bytes) [] s
  | perByte =>
    clear hne
    simp only [sendDataOps]
    induction bytes generalizing b s with
    | nil => simpa [dataEvents, applyOps] using applyOps_transaction .data [b] [] s
    | cons b' bytes ih =>
      rw [List.flatMap_cons]
      refine (applyOps_transaction .data [b] _ s).trans ?_
      rw [ih]
      simp [dataEvents_perByte_cons b]
      omega

/-- The operations of a wire command, one after another, lead to the end of its last transaction. -/
theorem applyOps_wordOps {w : WireWord} (hc : w.cmd ≠ []) (s : State) :
    applyOps (wordOps s.cfg.framing w) { s with send := none } = afterWord w s := by
  unfold wordOps sendCmdOps
  rw [applyOps_transaction]
  by_cases hd : w.data = []
  · have hev : wordEvents s.cfg.framing w = cmdEvents w.cmd := by
      cases h : s.cfg.framing <;> simp [wordEvents, dataEvents, hc, hd]
    simp [hd, hev, sendDataOps, applyOps, afterWord, cmdEvents]
  · rw [applyOps_sendDataOps _ hd]
    simp [afterWord, wordEvents, hc, hd, cmdEvents]
    omega

/-- Each operation of a group is counted once. -/
@[simp] theorem applyOps_ops (ops : List BusOp) (s : State) : (applyOps ops s).ops = s.ops + ops.length := by
  induction ops generalizing s with
  | nil => rfl
  | cons op ops ih =>
    simp only [applyOps, ih, applyOp_ops, List.length_cons]
    omega

/-- A wire command has one operation for each of its events. -/
theorem wordOps_length {w : WireWord} (hc : w.cmd ≠ []) (s : State) :
    (wordOps s.cfg.framing w).length = (wordEvents s.cfg.framing w).length := by
  have hops := congrArg State.ops (applyOps_wordOps hc s)
  simp only [applyOps_ops, afterWord] at hops
  exact Nat.add_left_cancel hops

theorem busOnPanel_append (v : Variant) (ops ops' : List BusOp) :
    busOnPanel v (ops ++ ops') = (busOnPanel v ops && busOnPanel v ops') := List.all_append

/-- A transaction of bytes with no intended address is on the panel. -/
theorem busOnPanel_transaction (v : Variant) (l : DcLevel) (bytes : List Byte) :
    busOnPanel v (transaction l (bytes.map (fun b => .xfer b none))) = true := by
  simp [busOnPanel, transaction]

/-- No byte of a command or payload has an intended address, so none is off the panel (20_memory R95). -/
theorem busOnPanel_wordOps (v : Variant) (fr : Framing) (w : WireWord) : busOnPanel v (wordOps fr w) = true := by
  have hdata : busOnPanel v (sendDataOps fr w.data) = true := by
    cases hw : w.data with
    | nil => rfl
    | cons b bytes =>
      cases fr with
      | perBurst => exact busOnPanel_transaction v .data (b :: bytes)
      | perByte => simp [sendDataOps, busOnPanel, transaction]
  rw [wordOps, busOnPanel_append, hdata, sendCmdOps, busOnPanel_transaction, Bool.and_self]

/-- Settles O26: the instruction issues the operations of its encoded word, and a group that does not fail runs to the end
of its last transaction. -/
theorem wireCommandSendsItsBytes : Obligations.WireCommandSendsItsBytes := by
  unfold Obligations.WireCommandSendsItsBytes
  intro s i hv hp hw hm hb hq
  have hc := encode_cmd_ne_nil hp hw
  rw [exec_eq_issue_wordOps hv hp, ← applyOps_wordOps hc s]
  rw [← wordOps_length hc s] at hq ⊢
  exact issue_run hm rfl hb hq (busOnPanel_wordOps _ _ _)

/-! ### Free draws -/

/-- The byte of an integer is the integer modulo 256. -/
theorem byte_ofInt_toNat (v : Int) : ((BitVec.ofInt 8 v).toNat : Int) = v % 256 := by
  rw [BitVec.toNat_ofInt]
  omega

/-- Both bytes of `enc16` of a value that fits: its low byte and its high byte (00_scope R18). -/
theorem enc16_toNat {n : Nat} {v : Int} (h0 : 0 ≤ v) (h1 : v < 65536) :
    ((enc16 n v).1.toNat : Int) = v % 256 ∧ ((enc16 n v).2.1.toNat : Int) = v / 256 ∧ (enc16 n v).2.2 = n := by
  rw [enc16_fits h0 h1]
  exact ⟨byte_ofInt_toNat v, (byte_ofInt_toNat _).trans (Int.emod_eq_of_lt (by omega) (by omega)), rfl⟩

/-- The byte of `enc8` of a value that fits is the value (00_scope R18). -/
theorem enc8_toNat {n : Nat} {v : Int} (h0 : 0 ≤ v) (h1 : v ≤ 255) :
    ((enc8 n v).1.toNat : Int) = v ∧ (enc8 n v).2 = n := by
  rw [enc8_fits h0 h1]
  exact ⟨(byte_ofInt_toNat v).trans (Int.emod_eq_of_lt h0 (by omega)), rfl⟩

/-- `enc8` of a value that does not fit is one free draw (00_scope R18). -/
theorem enc8_draws {n : Nat} {v : Int} (h : v < 0 ∨ 255 < v) : enc8 n v = (Config.freeByte n, n + 1) :=
  if_neg (by omega)

/-- `enc16` of a value that does not fit is two free draws (00_scope R18). -/
theorem enc16_draws {n : Nat} {v : Int} (h : v < 0 ∨ 65536 ≤ v) :
    enc16 n v = (Config.freeByte n, Config.freeByte (n + 1), n + 2) :=
  if_neg (by omega)

section Reads

variable {s : State} {rest : List Bool}

/-- A read of an input the host has changed is a free draw (20_memory R94). -/
theorem hostRead_changed {α : Type} (v : α) (free : Byte → α) (h : s.changed = true :: rest) :
    hostRead v free s = (free (Config.freeByte s.draws), { s with changed := rest, draws := s.draws + 1 }) := by
  simp [hostRead, h]

/-- A read of an input the host has kept is its value (20_memory R94). -/
theorem hostRead_kept {α : Type} (v : α) (free : Byte → α) (h : s.changed = false :: rest) :
    hostRead v free s = (v, { s with changed := rest }) := by
  simp [hostRead, h]

/-- The pixel function and the buffer are the host's inputs. -/
theorem pixRead_host_input (c : Color) (h : s.src = .callback ∨ s.src = .buffer) :
    pixRead c s = hostRead c (freeColor s.cfg.variant) s := by
  rcases h with h | h <;> simp [pixRead, h]

/-- The constant of CLEAR_FRAME and TB are the block's own. -/
theorem pixRead_own (c : Color) (h : s.src = .constant ∨ s.src = .text) : pixRead c s = (c, s) := by
  rcases h with h | h <;> simp [pixRead, h]

/-- A string byte the host has changed is a free draw, whether or not one was bound (20_memory R94; log 12). -/
theorem strRead_changed (h : s.changed = true :: rest) :
    strRead s = (Config.freeByte s.draws, { s with changed := rest, draws := s.draws + 1 }) := by
  cases hb : s.ports.str[s.text.i]? with
  | none => simp [strRead, hb, h]
  | some b => simp [strRead, hb, hostRead_changed b id h]

theorem strRead_bound {b : Byte} (hb : s.ports.str[s.text.i]? = some b) : strRead s = hostRead b id s := by
  simp [strRead, hb]

end Reads

/-- A free Color is one of the variant. -/
theorem colorOk_freeColor (v : Variant) (b : Byte) : colorOk v (freeColor v b) = true := by
  have hbit : (b &&& 1).ule 1 = true := by
    rw [BitVec.ule_eq_decide, BitVec.toNat_and]
    exact decide_eq_true Nat.and_le_right
  cases v with
  | goled => rfl
  | epd | woled => exact hbit

/-- Every Color of the variant is drawn by some byte: by itself. -/
theorem freeColor_eq_self {v : Variant} {c : Color} (h : colorOk v c = true) : freeColor v c = c := by
  have hbit (hc : c.ule 1 = true) : c &&& 1 = c := by
    rw [BitVec.ule_eq_decide, decide_eq_true_iff] at hc
    refine BitVec.eq_of_toNat_eq ?_
    rw [BitVec.toNat_and]
    exact (Nat.and_one_is_mod _).trans (Nat.mod_eq_of_lt (Nat.lt_succ_of_le hc))
  cases v with
  | goled => rfl
  | epd | woled => exact hbit h

/-- Settles O31: the address bytes, the reads by their kind, and the Colors a free draw can be. -/
theorem freeDraws : Obligations.FreeDraws := by
  unfold Obligations.FreeDraws
  refine ⟨fun v n => ⟨enc8_toNat, enc8_draws, enc16_toNat, enc16_draws⟩,
    fun s c b rest => ⟨fun h => ?_, fun h => ?_, ?_⟩, fun v => ⟨colorOk_freeColor v, fun c hc => ⟨c, freeColor_eq_self hc⟩⟩⟩
  · exact ⟨fun hs => (pixRead_host_input c hs).trans (hostRead_changed _ _ h), strRead_changed h, hostRead_changed _ _ h⟩
  · exact ⟨fun hs => (pixRead_host_input c hs).trans (hostRead_kept _ _ h),
      fun hb => (strRead_bound hb).trans (hostRead_kept _ _ h), hostRead_kept _ _ h⟩
  · exact pixRead_own c

/-! ### How a frame write begins -/

/-- A request that its checks admit begins in IDLE (40 R162). -/
theorem serve_idle {s : State} (hm : s.mode = .idle) (l : Latch) (go : State → State) :
    serve false l true go s = .next (go { s with latch := l }) := by
  simp [serve, hm]

/-- The limits of 30_encoding R113, met. -/
theorem windowLimitOk_of_le {x y w h : Half} (hx : x.toNat + w.toNat ≤ 65535) (hy : y.toNat + h.toNat ≤ 65535) :
    windowLimitOk x y w h = true := by
  simp [windowLimitOk, hx, hy]

section FrameWrite

variable {s : State} {x y w h : Half}

/-- A pixel-function write within the limits begins the unit's algorithm over the latched window. -/
theorem exec_setFrameCallback_idle (hm : s.mode = .idle) (hx : x.toNat + w.toNat ≤ 65535)
    (hy : y.toNat + h.toNat ≤ 65535) :
    exec (.setFrameCallback x y w h) s =
      .next (startWrite { s with latch := ⟨0x02, 0, 0, 0, x, y, w, h⟩, src := .callback }) := by
  simp only [exec, execSetFrameCallback, windowLimitOk_of_le hx hy, serve_idle hm]

/-- The same for a buffer write. -/
theorem exec_setFrameBuffer_idle (hm : s.mode = .idle) (hx : x.toNat + w.toNat ≤ 65535)
    (hy : y.toNat + h.toNat ≤ 65535) :
    exec (.setFrameBuffer x y w h) s =
      .next (startWrite { s with latch := ⟨0x03, 0, 0, 0, x, y, w, h⟩, src := .buffer }) := by
  simp only [exec, execSetFrameBuffer, windowLimitOk_of_le hx hy, serve_idle hm]

end FrameWrite

/-- Check (4) of 30_encoding R119 passes under EMPTY and for a window that is not degenerate. -/
theorem refusesDegenerate_eq_false {c : Config} {degenerate : Bool}
    (hd : c.degenerateExtent = .empty ∨ degenerate = false) : refusesDegenerate c degenerate = false := by
  rcases hd with hd | hd <;> simp [refusesDegenerate, hd]

/-- An EPD write of a window `⟨x, y, w, h⟩` that check (4) admits begins (41_epaper R211). -/
theorem startWrite_epd_begins {s : State} {x y w h : Nat} (hv : s.cfg.variant = .epd)
    (hwin : window s = ⟨x, y, w, h⟩)
    (hd : s.cfg.degenerateExtent = .empty ∨ (8 ≤ w ∧ 0 < h ∧ x < 200 ∧ y < 200)) :
    startWrite s = epdBegin ⟨x, y, w, h⟩ s := by
  have hok : refusesDegenerate s.cfg (epdDegenerate ⟨x, y, w, h⟩ (epdClip ⟨x, y, w, h⟩ s.epd)) = false := by
    refine refusesDegenerate_eq_false (hd.imp_right fun hin => ?_)
    rw [← Bool.not_eq_true, epdDegenerate_iff]
    omega
  rw [startWrite_epd hv, hwin, hok]
  rfl

/-- A WOLED write of a window `⟨x, y, w, h⟩` that check (4) admits begins (43_wide_oled R301). -/
theorem startWrite_woled_begins {s : State} {x y w h : Nat} (hv : s.cfg.variant = .woled)
    (hwin : window s = ⟨x, y, w, h⟩)
    (hd : s.cfg.degenerateExtent = .empty ∨ (0 < w ∧ 8 ≤ h ∧ x < 128 ∧ y < 64)) :
    startWrite s = woledBegin ⟨x, y, w, h⟩ s := by
  have hok : refusesDegenerate s.cfg (woledDegenerate ⟨x, y, w, h⟩ (woledClip ⟨x, y, w, h⟩ s.woled)) = false := by
    refine refusesDegenerate_eq_false (hd.imp_right fun hin => ?_)
    rw [← Bool.not_eq_true, woledDegenerate_iff]
    omega
  rw [startWrite_woled hv, hwin, hok]
  rfl

/-- Settles O36: both requests begin the EPD algorithm over the latched window. -/
theorem epdFrameWriteBegins : Obligations.EpdFrameWriteBegins := by
  unfold Obligations.EpdFrameWriteBegins
  intro s x y w h hm hv hx hy hd
  exact ⟨(exec_setFrameCallback_idle hm hx hy).trans (congrArg _ (startWrite_epd_begins hv rfl hd)),
    (exec_setFrameBuffer_idle hm hx hy).trans (congrArg _ (startWrite_epd_begins hv rfl hd))⟩

/-- Settles O39: both requests begin the WOLED algorithm over the latched window. -/
theorem woledFrameWriteBegins : Obligations.WoledFrameWriteBegins := by
  unfold Obligations.WoledFrameWriteBegins
  intro s x y w h hm hv hx hy hd
  exact ⟨(exec_setFrameCallback_idle hm hx hy).trans (congrArg _ (startWrite_woled_begins hv rfl hd)),
    (exec_setFrameBuffer_idle hm hx hy).trans (congrArg _ (startWrite_woled_begins hv rfl hd))⟩

end Sys2Proof.Machine
end

section
/-! SUPPORT and PROOFS. The invariant of the machine: what each move, event, read and request keeps of it, and that every
step keeps it (O56). -/

namespace Sys2Proof.Machine

variable {s t : State}

/-! ### The parts of the invariant -/

/-- What the invariant says of a block that is not in HALTED, wherever its sequencer stands: a statement about the fields
it reads, so that an update of any other field keeps it as it is. -/
structure LiveIn (c : Config) (m : Mode) (cause : Option FaultCode) (fm vis : List Host.Cell) (cx : Int) : Prop where
  config : c.wf = true
  live : m ≠ .halted
  mode : modeOfVariant c.variant m = true
  cause : cause = none
  fm : memOk c.variant fm = true
  vis : memOk c.variant vis = true
  cursor : 0 ≤ cx

/-- A block of the invariant that is not in HALTED. -/
abbrev Live (s : State) : Prop := LiveIn s.cfg s.mode s.haltCause s.fm s.vis s.text.cx

/-- Nothing is on the bus and nothing is due, chip-select being deasserted: the sequencer may move. -/
structure FreeIn (cs : CsLevel) (bus : List BusOp) (send : Option WireWord) : Prop where
  cs : cs = .deassert
  bus : bus = []
  send : send = none

/-- A live block between two events, none of them inside a transaction. -/
abbrev Free (s : State) : Prop := Live s ∧ FreeIn s.pins.cs s.bus s.send

/-- A position fits the variant, the MODE and the parameters, and is not inside the events of a fault. -/
def posOk (c : Config) (m : Mode) (p : Pos) : Bool :=
  posOfVariant c.variant p && modeAt p m && initRestOk c p && !isHalting p

theorem posOk_iff {c : Config} {m : Mode} {p : Pos} : posOk c m p = true ↔
    posOfVariant c.variant p = true ∧ modeAt p m = true ∧ initRestOk c p = true ∧ isHalting p = false := by
  simp only [posOk, Bool.and_eq_true, Bool.not_eq_true', and_assoc]

/-- A position with its variant and MODE written out, both closed terms. -/
theorem posOk_intro {c : Config} {v : Variant} {m m' : Mode} {p : Pos} (hv : c.variant = v) (hm : m = m')
    (hp : (posOfVariant v p && modeAt p m' && !isHalting p) = true := by rfl) (hi : initRestOk c p = true := by rfl) :
    posOk c m p = true := by
  subst hv hm
  simp only [Bool.and_eq_true, Bool.not_eq_true'] at hp
  obtain ⟨⟨hpos, hmode⟩, hh⟩ := hp
  exact posOk_iff.mpr ⟨hpos, hmode, hi, hh⟩

theorem Inv.live (h : Inv s) (hm : s.mode ≠ .halted) : Live s where
  config := h.config
  live := hm
  mode := h.mode
  cause := by simpa using mt h.cause.mpr hm
  fm := h.fm
  vis := h.vis
  cursor := h.cursor

theorem Inv.posOk (h : Inv s) (hh : isHalting s.pos = false) : posOk s.cfg s.mode s.pos = true :=
  posOk_iff.mpr ⟨h.pos, h.modePos, h.initRest, hh⟩

/-- Operations are on the bus only outside the events of a fault. -/
theorem Inv.running (h : Inv s) (hb : s.bus ≠ []) : isHalting s.pos = false := by
  by_contra hn
  exact hb (h.ended (by simpa using hn)).2

/-- DC changes only between transactions (10_state R47). -/
theorem framed_dc_cons {c : CsLevel} {l : DcLevel} {rest : List BusOp} (h : framed c (.dc l :: rest) = true) :
    c = .deassert ∧ framed c rest = true := by
  cases c with
  | deassert => exact ⟨rfl, h⟩
  | assert => cases h

/-- The operations left end with chip-select deasserted (10_state R47). -/
theorem framed_nil {c : CsLevel} (h : framed c [] = true) : c = .deassert := by
  cases c with
  | deassert => rfl
  | assert => cases h

/-- Chip-select is deasserted between transactions: where the bus is free, and where DC is next (10_state R47). -/
theorem Inv.cs_deassert (h : Inv s) (hm : s.mode ≠ .halted) (hh : isHalting s.pos = false)
    (hb : s.bus = [] ∨ ∃ l rest, s.bus = .dc l :: rest) : s.pins.cs = .deassert := by
  have hf := h.framing hm hh
  rcases hb with hb | ⟨l, rest, hb⟩ <;> rw [hb] at hf
  · exact framed_nil hf
  · exact (framed_dc_cons hf).1

/-- With the bus free and no command due, a live block of the invariant that is not inside a fault may move. -/
theorem Inv.free (h : Inv s) (hm : s.mode ≠ .halted) (hh : isHalting s.pos = false) (hb : s.bus = [])
    (hs : s.send = none) : Free s :=
  ⟨h.live hm, h.cs_deassert hm hh (.inl hb), hb, hs⟩

/-- The invariant of a live block, from its parts. -/
theorem Live.inv (h : Live s) (hp : posOfVariant s.cfg.variant s.pos = true) (hmp : modeAt s.pos s.mode = true)
    (hi : initRestOk s.cfg s.pos = true) (hr : registersAt s s.pos)
    (hf : isHalting s.pos = false → framed s.pins.cs s.bus = true) (hb : busOnPanel s.cfg.variant s.bus = true)
    (hfree : s.send ≠ none → s.bus = []) (hs : ∀ w, s.send = some w → sendOk s w = true)
    (hd : isMove s.pos = true → s.send ≠ none ∨ s.bus ≠ []) (he : isHalting s.pos = true → s.send = none ∧ s.bus = []) :
    Inv s where
  config := h.config
  fm := h.fm
  vis := h.vis
  cause := by simp [h.live, h.cause]
  framing _ := hf
  bus := hb
  mode := h.mode
  pos := hp
  modePos := hmp
  initRest := hi
  cursor := h.cursor
  registers := hr
  sendFree := hfree
  send := hs
  due := hd
  ended := he

/-- A free block at a point where an event or a read is next. -/
theorem Free.inv_at (h : Free s) (hp : Machine.posOk s.cfg s.mode s.pos = true) (hmv : isMove s.pos = false)
    (hr : registersAt s s.pos) : Inv s := by
  obtain ⟨hl, hcs, hb, hs⟩ := h
  obtain ⟨h1, h2, h3, h4⟩ := posOk_iff.mp hp
  exact hl.inv h1 h2 h3 hr (fun _ => by simp [hcs, hb, framed]) (by simp [hb, busOnPanel]) (fun _ => hb)
    (by simp [hs]) (by simp [hmv]) (fun _ => ⟨hs, hb⟩)

/-- A free block that comes to stand at a command of its variant. -/
theorem Free.inv_standAt {w : WireWord} {p : Pos} (h : Free s) (hp : Machine.posOk s.cfg s.mode p = true)
    (hr : registersAt s p) (hw : sendOk (standAt w p s) w = true) : Inv (standAt w p s) := by
  obtain ⟨hl, hcs, hb, hs⟩ := h
  obtain ⟨h1, h2, h3, h4⟩ := posOk_iff.mp hp
  refine Live.inv hl h1 h2 h3 ?_ (fun _ => ?_) ?_ (fun _ => hb) ?_ (fun _ => .inl (by simp)) (by simp [h4])
  · cases p <;> exact hr
  · simp [hcs, hb, framed]
  · simp [hb, busOnPanel]
  · intro w' hw'
    obtain rfl : w = w' := Option.some.inj hw'
    exact hw

/-- A move of MODE, not to HALTED, keeps a block free. -/
theorem Free.withMode (h : Free s) {m : Mode} (hl : m ≠ .halted) (hm : modeOfVariant s.cfg.variant m = true) :
    Free { s with mode := m } :=
  ⟨{ h.1 with live := hl, mode := hm }, h.2⟩

/-! ### Faults keep the invariant -/

/-- The Halt event ends in HALTED with its code (10_state R43). -/
theorem Live.halt_inv (h : Live s) (code : FaultCode) : Inv (halt code s) where
  config := h.config
  fm := h.fm
  vis := h.vis
  cause := by simp
  framing hm := absurd rfl hm
  bus := rfl
  mode := by cases hv : s.cfg.variant <;> simp [hv, modeOfVariant]
  pos := rfl
  modePos := rfl
  initRest := rfl
  cursor := h.cursor
  registers := trivial
  sendFree _ := rfl
  send := by simp
  due := nofun
  ended := nofun

/-- Taking a fault, from any point of a live block: Diag leaves Halt alone to come, and Halt ends. -/
theorem Live.takeFault_inv (h : Live s) (code : FaultCode) : Inv (takeFault code s) := by
  rcases takeFault_cases code s with ⟨-, ht⟩ | ⟨-, ht⟩ <;> rw [ht]
  · exact Live.inv h rfl (by simpa [modeAt] using h.live) rfl trivial nofun rfl (fun _ => rfl) nofun nofun
      (fun _ => ⟨rfl, rfl⟩)
  · exact h.halt_inv code

/-- Coming to raise a fault, with the bus free. -/
theorem Free.raiseFault_inv (h : Free s) (code : FaultCode) : Inv (raiseFault code s) := by
  obtain ⟨hl, hf⟩ := h
  refine Free.inv_at ⟨hl, hf.cs, rfl, rfl⟩ ?_ rfl trivial
  simpa [posOk, posOfVariant, modeAt, initRestOk, isHalting] using hl.live

/-- A pin operation keeps the invariant where its own effect does: its failure takes a fault. -/
theorem Live.pinOp_inv {k : State → State} (h : Live s) (hk : Inv (k { s with ops := s.ops + 1 })) :
    Inv (pinOp s k) := by
  rcases pinOp_cases s k with ⟨u, -, hu⟩ | ⟨-, hu⟩ <;> rw [hu]
  · exact h.takeFault_inv _
  · exact hk

/-! ### The commands at which the sequencer comes to stand are of the variant (30_encoding R126, R129) -/

/-- Any of the twelve EPD commands, with any payload. -/
theorem sendOk_epd {op : Byte} {payload : List Byte} (hv : s.cfg.variant = .epd) (hop : epdOpcodes.contains op = true) :
    sendOk s ⟨[op], payload⟩ = true := by
  simp only [epdOpcodes, List.contains_eq_mem, List.mem_cons, List.not_mem_nil, or_false, decide_eq_true_eq] at hop
  have hd : ∃ i, decodeEpdCommand op payload = .ok i ∧ isPixelData i = false ∧ initCommandOk s.cfg i = true := by
    rcases hop with rfl | rfl | rfl | rfl | rfl | rfl | rfl | rfl | rfl | rfl | rfl | rfl <;> exact ⟨_, rfl, rfl, rfl⟩
  obtain ⟨i, hd, hpx, hi⟩ := hd
  simp [sendOk, wireSpace, hv, decode, decodeEpd, hd, hpx, hi]

/-- A pixel byte, after the reads it is packed from. -/
theorem sendOk_pixel {b : Byte} (hm : s.mode ≠ .initializing) (hp : isAfterPixelByte s.pos = true) :
    sendOk s ⟨[], [b]⟩ = true := by
  cases hv : s.cfg.variant <;>
    simp [sendOk, wireSpace, hv, hm, decode, decodeEpd, decodeGoled, decodeWoled, hp, initCommandOk]

/-- The two GOLED window commands, outside INIT. -/
theorem sendOk_goledWindow {op first last : Byte} (hv : s.cfg.variant = .goled) (hm : s.mode ≠ .initializing)
    (hop : op = 0x15 ∨ op = 0x75) : sendOk s ⟨[op, first, last], []⟩ = true := by
  rcases hop with rfl | rfl <;> simp [sendOk, wireSpace, hv, hm, decode, decodeGoled, isPixelData, initCommandOk]

/-- A non-empty command of GOLED_INIT_BLOCK, in INIT (30_encoding R124). -/
theorem sendOk_goledInit {bytes : List Byte} (hv : s.cfg.variant = .goled) (hm : s.mode = .initializing)
    (hne : bytes ≠ []) (hmem : s.cfg.goledInitBlock.contains bytes = true) : sendOk s ⟨bytes, []⟩ = true := by
  obtain ⟨b, bytes, rfl⟩ := List.exists_cons_of_ne_nil hne
  rw [sendOk, wireSpace, hv, hm]
  simpa [decode, decodeGoledInit, isPixelData, initCommandOk] using hmem

/-- The two WOLED window commands. -/
theorem sendOk_woledWindow {op first last : Byte} (hv : s.cfg.variant = .woled) (hop : op = 0x21 ∨ op = 0x22) :
    sendOk s ⟨[op, first, last], []⟩ = true := by
  rcases hop with rfl | rfl <;> simp [sendOk, wireSpace, hv, decode, decodeWoled, isPixelData, initCommandOk]

/-- The four WOLED initialisation commands (43_wide_oled R292). -/
theorem sendOk_woledInit {bytes : List Byte} (hv : s.cfg.variant = .woled)
    (hmem : woledInitCommands.contains bytes = true) : sendOk s ⟨bytes, []⟩ = true := by
  simp only [woledInitCommands, List.contains_eq_mem, List.mem_cons, List.not_mem_nil, or_false,
    decide_eq_true_eq] at hmem
  rcases hmem with rfl | rfl | rfl | rfl <;>
    simp [sendOk, wireSpace, hv, decode, decodeWoled, isPixelData, initCommandOk]

/-! ### The ends of the algorithms keep the invariant -/

theorem modeOfVariant_idle (v : Variant) : modeOfVariant v .idle = true := by cases v <;> rfl

theorem modeOfVariant_writing (v : Variant) : modeOfVariant v .writing = true := by cases v <;> rfl

theorem modeOfVariant_initializing (v : Variant) : modeOfVariant v .initializing = true := by cases v <;> rfl

theorem Free.finishRequest_inv (h : Free s) : Inv (finishRequest s) :=
  Free.inv_at (s := finishRequest s) (h.withMode nofun (modeOfVariant_idle _)) rfl rfl trivial

/-- The next character, in WRITING, or the end of DRAW_TEXT: the cursor advances. -/
theorem Free.nextChar_inv (h : Free s) (hm : s.mode = .writing) : Inv (nextChar s) := by
  have hcx : 0 ≤ s.text.cx + 8 := Int.add_nonneg h.1.cursor (by decide)
  unfold nextChar
  dsimp only
  split
  · exact Free.inv_at ⟨{ h.1 with cursor := hcx }, h.2⟩ (posOk_intro rfl hm)
      rfl trivial
  · exact Free.finishRequest_inv ⟨{ h.1 with cursor := hcx }, h.2⟩

/-- The end of a write: a cell of DRAW_TEXT ends in WRITING. -/
theorem Free.writeDone_inv (h : Free s) (hm : s.src = .text → s.mode = .writing) : Inv (writeDone s) := by
  unfold writeDone
  split
  · next hsrc => exact h.nextChar_inv (hm hsrc)
  all_goals exact h.finishRequest_inv

/-! ### The EPD frame write keeps the invariant -/

/-- The window of a frame write does not begin left of the panel or above it. -/
theorem window_nonneg (hc : 0 ≤ s.text.cx) : 0 ≤ (window s).x ∧ 0 ≤ (window s).y := by
  unfold window
  split <;> simp [hc]

/-- Alignment and clipping put the EPD window on the panel (41_epaper R211, R212). -/
theorem epdWindowOk_epdClip {win : Window} (e : EpdWork) (hx : 0 ≤ win.x) : epdWindowOk (epdClip win e) := by
  unfold epdWindowOk
  simp only [epdClip]
  split_ifs <;> omega

theorem Free.epdBegin_inv (h : Free s) (hv : s.cfg.variant = .epd) : Inv (epdBegin (window s) s) :=
  Free.inv_standAt (h.withMode nofun (modeOfVariant_writing _))
    (posOk_intro hv rfl)
    (epdWindowOk_epdClip s.epd (window_nonneg h.1.cursor).1) (sendOk_epd hv (by decide))

/-- A row in the window, at its X pointer, or the end of the write. -/
theorem Free.epdRowOrEnd_inv {j : Int} (h : Free s) (hv : s.cfg.variant = .epd) (hm : s.mode = .writing)
    (hw : epdWindowOk s.epd) (hj : 0 ≤ j) : Inv (epdRowOrEnd j s) := by
  unfold epdRowOrEnd
  split
  · next hje =>
    exact Free.inv_standAt h (posOk_intro hv hm) ⟨hw, hj, hje⟩
      (sendOk_epd hv (by decide))
  · exact h.writeDone_inv (fun _ => hm)

/-- A group of the row, at its first query, or the next row. -/
theorem Free.epdGroupOrRow_inv {g : Int} (h : Free s) (hv : s.cfg.variant = .epd) (hm : s.mode = .writing)
    (hw : epdWindowOk s.epd) (hj : 0 ≤ s.epd.j) (hje : s.epd.j ≤ s.epd.ye) (hg : 0 ≤ g) : Inv (epdGroupOrRow g s) := by
  unfold epdGroupOrRow
  split
  · next hgn =>
    exact Free.inv_at h (posOk_intro hv hm) rfl
      ⟨hw, hj, hje, hg, hgn, Nat.zero_le _⟩
  · exact h.epdRowOrEnd_inv hv hm hw (by omega)

/-! ### The GOLED frame write keeps the invariant -/

/-- Halving and clipping put the GOLED window on the panel (42_gray_oled R262). -/
theorem goledWindowOk_goledClip {win : Window} (g : GoledWork) (hx : 0 ≤ win.x) : goledWindowOk (goledClip win g) := by
  unfold goledWindowOk
  simp only [goledClip]
  omega

theorem Free.goledBegin_inv (h : Free s) (hv : s.cfg.variant = .goled) : Inv (goledBegin (window s) s) :=
  Free.inv_standAt (h.withMode nofun (modeOfVariant_writing _))
    (posOk_intro hv rfl)
    (goledWindowOk_goledClip s.goled (window_nonneg h.1.cursor).1)
    (sendOk_goledWindow hv nofun (.inl rfl))

theorem Free.goledRowOrEnd_inv {r : Int} (h : Free s) (hv : s.cfg.variant = .goled) (hm : s.mode = .writing)
    (hw : goledWindowOk s.goled) (hr : 0 ≤ r) : Inv (goledRowOrEnd r s) := by
  unfold goledRowOrEnd
  split
  · next hre =>
    exact Free.inv_at h (posOk_intro hv hm) rfl
      ⟨hw, hr, hre.1, le_rfl, hre.2⟩
  · exact h.writeDone_inv (fun _ => hm)

theorem Free.goledNext_inv (h : Free s) (hv : s.cfg.variant = .goled) (hm : s.mode = .writing)
    (hr : registersAt s .goledNextPair) : Inv (goledNext s) := by
  obtain ⟨hw, hr0, hre, hc, -⟩ := hr
  unfold goledNext
  split
  · next hce =>
    exact Free.inv_at h (posOk_intro hv hm) rfl
      ⟨hw, hr0, hre, Int.le_add_one hc, hce⟩
  · exact h.goledRowOrEnd_inv hv hm hw (by omega)

/-! ### The WOLED frame write keeps the invariant -/

/-- Pages and clipping put the WOLED window on the panel (43_wide_oled R301). -/
theorem woledWindowOk_woledClip {win : Window} (o : WoledWork) (hy : 0 ≤ win.y) : woledWindowOk (woledClip win o) := by
  unfold woledWindowOk
  simp only [woledClip]
  omega

theorem Free.woledBegin_inv (h : Free s) (hv : s.cfg.variant = .woled) : Inv (woledBegin (window s) s) :=
  Free.inv_standAt (h.withMode nofun (modeOfVariant_writing _))
    (posOk_intro hv rfl)
    (woledWindowOk_woledClip s.woled (window_nonneg h.1.cursor).2) (sendOk_woledWindow hv (.inl rfl))

theorem Free.woledPageOrEnd_inv {p : Int} (h : Free s) (hv : s.cfg.variant = .woled) (hm : s.mode = .writing)
    (hw : woledWindowOk s.woled) (hp : 0 ≤ p) : Inv (woledPageOrEnd p s) := by
  unfold woledPageOrEnd
  split
  · next hpe =>
    exact Free.inv_at h (posOk_intro hv hm) rfl
      ⟨hw, hp, hpe.1, (window_nonneg h.1.cursor).1, hpe.2, le_rfl⟩
  · exact h.writeDone_inv (fun _ => hm)

theorem Free.woledNext_inv (h : Free s) (hv : s.cfg.variant = .woled) (hm : s.mode = .writing)
    (hr : registersAt s .woledNextColumn) : Inv (woledNext s) := by
  obtain ⟨hw, hp0, hpe, hc, -⟩ := hr
  unfold woledNext
  split
  · next hxe =>
    exact Free.inv_at h (posOk_intro hv hm) rfl
      ⟨hw, hp0, hpe, Int.add_nonneg hc (by decide), hxe, le_rfl⟩
  · exact h.woledPageOrEnd_inv hv hm hw (by omega)

/-- A write begins over its window, is guarded, or raises DEGENERATE; a cell of DRAW_TEXT begins in WRITING. -/
theorem Free.startWrite_inv (h : Free s) (hm : s.src = .text → s.mode = .writing) : Inv (startWrite s) := by
  cases hv : s.cfg.variant with
  | epd =>
    rw [startWrite_epd hv]
    split
    · exact h.raiseFault_inv _
    · exact h.epdBegin_inv hv
  | goled =>
    rw [startWrite_goled hv]
    split
    · exact h.writeDone_inv hm
    · split
      · exact h.raiseFault_inv _
      · exact h.goledBegin_inv hv
  | woled =>
    rw [startWrite_woled hv]
    split
    · exact h.raiseFault_inv _
    · exact h.woledBegin_inv hv

/-! ### Initialisation keeps the invariant -/

/-- The next action of an admitted rest of EPD_INIT_SEQ, or the end of INIT. -/
theorem Free.epdInitNext_inv {rest : List InitAction} (h : Free s) (hv : s.cfg.variant = .epd)
    (hm : s.mode = .initializing) (hr : rest.all initActionOk = true) : Inv (epdInitNext rest s) := by
  unfold epdInitNext
  split
  · exact h.finishRequest_inv
  · obtain ⟨hop, hrest⟩ := Bool.and_eq_true_iff.mp hr
    exact h.inv_standAt (posOk_intro hv hm rfl hrest) trivial
      (sendOk_epd hv hop)
  · exact Free.inv_at h
      (posOk_intro hv hm rfl hr) rfl trivial
  · exact Free.inv_at h
      (posOk_intro hv hm rfl hr) rfl trivial

/-- No command of an admitted GOLED_INIT_BLOCK is empty (42_gray_oled R251). -/
theorem goledInitBlock_ne_nil {c : Config} {bytes : List Byte} (hc : c.wf = true)
    (hmem : c.goledInitBlock.contains bytes = true) : bytes ≠ [] := by
  simp only [Config.wf, goledInitBlockOk, Bool.and_eq_true, List.all_eq_true] at hc
  obtain ⟨-, ⟨⟨hne, -⟩, -⟩, -⟩ := hc
  simpa using hne bytes (by simpa using hmem)

/-- The next command of GOLED_INIT_BLOCK, or its closing delay. -/
theorem Free.goledInitNext_inv {rest : List (List Byte)} (h : Free s) (hv : s.cfg.variant = .goled)
    (hm : s.mode = .initializing) (hr : rest.all (fun k => s.cfg.goledInitBlock.contains k) = true) :
    Inv (goledInitNext rest s) := by
  unfold goledInitNext
  split
  · exact Free.inv_at h (posOk_intro hv hm) rfl trivial
  · obtain ⟨hk, hrest⟩ := Bool.and_eq_true_iff.mp hr
    exact h.inv_standAt (posOk_intro hv hm rfl hrest) trivial
      (sendOk_goledInit hv hm (goledInitBlock_ne_nil h.1.config hk) hk)

/-- The next WOLED initialisation command, or the end of INIT. -/
theorem Free.woledInitNext_inv {rest : List (List Byte)} (h : Free s) (hv : s.cfg.variant = .woled)
    (hm : s.mode = .initializing) (hr : rest.all (fun k => woledInitCommands.contains k) = true) :
    Inv (woledInitNext rest s) := by
  unfold woledInitNext
  split
  · exact h.finishRequest_inv
  · obtain ⟨hk, hrest⟩ := Bool.and_eq_true_iff.mp hr
    exact h.inv_standAt (posOk_intro hv hm rfl hrest) trivial
      (sendOk_woledInit hv hk)

/-! ### Moving on keeps the invariant -/

theorem resume_of_isMove_eq_false (h : isMove s.pos = false) : resume s = s := by
  unfold resume
  cases hp : s.pos <;> simp [hp, isMove] at h ⊢

/-- A free block moves on to the next point of its algorithm; the position says its variant and MODE, and where the
working registers are. -/
theorem Free.resume_inv (h : Free s) (hp : posOk s.cfg s.mode s.pos = true) (hr : registersAt s s.pos) :
    Inv (resume s) := by
  cases hmv : isMove s.pos with
  | false =>
    rw [resume_of_isMove_eq_false hmv]
    exact h.inv_at hp hmv hr
  | true =>
    obtain ⟨hv, hm, hi, -⟩ := posOk_iff.mp hp
    obtain ⟨-, hy⟩ := window_nonneg h.1.cursor
    unfold resume
    cases e : s.pos <;> rw [e] at hmv hv hm hi hr <;> dsimp only
    case epdInit rest => exact h.epdInitNext_inv (eq_of_beq hv) (eq_of_beq hm) hi
    case epdYWindow =>
      exact Free.inv_standAt h (posOk_intro (eq_of_beq hv) (eq_of_beq hm)) hr (sendOk_epd (eq_of_beq hv) (by decide))
    case epdRows => exact h.epdRowOrEnd_inv (eq_of_beq hv) (eq_of_beq hm) hr hy
    case epdYPointer =>
      exact Free.inv_standAt h (posOk_intro (eq_of_beq hv) (eq_of_beq hm)) hr (sendOk_epd (eq_of_beq hv) (by decide))
    case epdPointerSet =>
      exact Free.inv_at (h.withMode nofun (by rw [eq_of_beq hv]; rfl)) (posOk_intro (eq_of_beq hv) rfl) rfl hr
    case epdGroups =>
      obtain ⟨hw, hj, hje⟩ := hr
      exact h.epdGroupOrRow_inv (eq_of_beq hv) (eq_of_beq hm) hw hj hje le_rfl
    case epdNextGroup =>
      obtain ⟨hw, hj, hje, hg, -⟩ := hr
      exact h.epdGroupOrRow_inv (eq_of_beq hv) (eq_of_beq hm) hw hj hje (by omega)
    case goledBlock rest => exact h.goledInitNext_inv (eq_of_beq hv) (eq_of_beq hm) hi
    case goledRowWindow =>
      exact Free.inv_standAt h (posOk_intro (eq_of_beq hv) (eq_of_beq hm)) hr
        (sendOk_goledWindow (eq_of_beq hv) (by simp [eq_of_beq hm]) (.inr rfl))
    case goledRows => exact h.goledRowOrEnd_inv (eq_of_beq hv) (eq_of_beq hm) hr hy
    case goledNextPair => exact h.goledNext_inv (eq_of_beq hv) (eq_of_beq hm) hr
    case woledInit rest => exact h.woledInitNext_inv (eq_of_beq hv) (eq_of_beq hm) hi
    case woledPageWindow =>
      exact Free.inv_standAt h (posOk_intro (eq_of_beq hv) (eq_of_beq hm)) hr
        (sendOk_woledWindow (eq_of_beq hv) (.inr rfl))
    case woledPages => exact h.woledPageOrEnd_inv (eq_of_beq hv) (eq_of_beq hm) hr hr.1
    case woledNextColumn => exact h.woledNext_inv (eq_of_beq hv) (eq_of_beq hm) hr
    all_goals cases hmv

/-- After an event of a transaction group: the next operation is on the bus, or the block is free and moves on. -/
theorem Live.settle_inv (h : Live s) (hs : s.send = none) (hp : posOk s.cfg s.mode s.pos = true)
    (hr : registersAt s s.pos) (hf : framed s.pins.cs s.bus = true) (hb : busOnPanel s.cfg.variant s.bus = true) :
    Inv (settle s) := by
  rcases settle_cases s with ⟨hbus, -, e⟩ | ⟨hbusy, e⟩ <;> rw [e]
  · exact Free.resume_inv ⟨h, framed_nil (hbus ▸ hf), hbus, hs⟩ hp hr
  · obtain ⟨h1, h2, h3, h4⟩ := posOk_iff.mp hp
    exact h.inv h1 h2 h3 hr (fun _ => hf) hb (fun hn => absurd hs hn) (by simp [hs]) (fun _ => hbusy.symm)
      (by simp [h4])

/-! ### The wire keeps the invariant -/

/-- The chip-select level after an operation frames the rest (10_state R47). -/
theorem framed_cs_cons {c l : CsLevel} {rest : List BusOp} (h : framed c (.cs l :: rest) = true) :
    framed l rest = true := by
  cases c <;> cases l
  case deassert.assert => exact h
  case assert.deassert => exact h
  all_goals cases h

/-- A byte is transferred only inside a transaction (10_state R47). -/
theorem framed_xfer_cons {c : CsLevel} {b : Byte} {d : Option (Int × Int)} {rest : List BusOp}
    (h : framed c (.xfer b d :: rest) = true) : framed c rest = true := by
  cases c with
  | deassert => cases h
  | assert => exact h

@[simp] theorem applyOp_pos (op : BusOp) (s : State) : (applyOp op s).pos = s.pos := by
  unfold applyOp; split <;> (try rfl); split <;> rfl

/-- One operation of a transaction group either takes a fault in its place, or happens, for a unit of the panel where it
is a pixel byte, and the sequencer settles. -/
theorem driveBus_cases {op : BusOp} {rest : List BusOp} (hb : s.bus = op :: rest) (h : driveBus s = .next t) :
    (∃ code, t = takeFault code { s with bus := rest }) ∨
    (busOnPanel s.cfg.variant [op] = true ∧ t = settle (applyOp op { s with bus := rest, ops := s.ops + 1 })) := by
  rw [driveBus, hb] at h
  cases op with
  | dc l =>
    obtain rfl := Host.Outcome.next.inj h
    exact (pinOp_cases { s with bus := rest } _).imp (fun ⟨_, _, e⟩ => ⟨_, e⟩) fun ⟨_, e⟩ => ⟨rfl, e⟩
  | cs l =>
    obtain rfl := Host.Outcome.next.inj h
    exact (pinOp_cases { s with bus := rest } _).imp (fun ⟨_, _, e⟩ => ⟨_, e⟩) fun ⟨_, e⟩ => ⟨rfl, e⟩
  | xfer b d =>
    rcases busOp_cases { s with bus := rest } (fun s => settleAfter (transfer b d s)) with ⟨u, -, e⟩ | ⟨-, e⟩
    · exact .inl ⟨_, (Host.Outcome.next.inj (e.symm.trans h)).symm⟩
    · replace h := e.symm.trans h
      dsimp only at h
      rcases transfer_cases b d { s with bus := rest, ops := s.ops + 1 } with
        ⟨rfl, e2⟩ | ⟨d', a, rfl, ha, e2⟩ | ⟨d', -, -, e2⟩ <;> rw [e2] at h
      · exact .inr ⟨rfl, (Host.Outcome.next.inj h).symm⟩
      · refine .inr ⟨by simpa [busOnPanel] using Option.isSome_of_eq_some ha, ?_⟩
        rw [← Host.Outcome.next.inj h]
        simp only [applyOp, ha]
      · cases h

/-- An operation keeps a live block live: a pixel byte is stored at a unit of the panel. -/
theorem Live.applyOp (h : Live s) (op : BusOp) : Live (applyOp op s) := by
  unfold Machine.applyOp
  split
  · exact h
  · exact h
  · exact h
  · split
    · next ha => exact { h with fm := memOk_write _ (fmAddr_lt ha) h.fm }
    · exact h

/-- An operation keeps the framing of those after it. -/
theorem framed_applyOp {op : BusOp} {rest : List BusOp} (h : framed s.pins.cs (op :: rest) = true) :
    framed (applyOp op s).pins.cs rest = true := by
  unfold applyOp
  split
  · exact (framed_dc_cons h).2
  · exact framed_cs_cons h
  · exact framed_xfer_cons h
  · split <;> exact framed_xfer_cons h

theorem registersAt_applyOp (op : BusOp) {p : Pos} (h : registersAt s p) : registersAt (applyOp op s) p := by
  unfold applyOp
  split
  · exact h
  · exact h
  · exact h
  · split <;> exact h

/-- One operation of the transaction group in progress keeps the invariant. -/
theorem Inv.driveBus_inv (h : Inv s) (hm : s.mode ≠ .halted) (hb : s.bus ≠ []) (ht : driveBus s = .next t) : Inv t := by
  have hl := h.live hm
  have hs : s.send = none := by
    by_contra hn
    exact hb (h.sendFree hn)
  have hh := h.running hb
  obtain ⟨op, rest, e⟩ := List.exists_cons_of_ne_nil hb
  have hf := h.framing hm hh
  have hon := h.bus
  rw [e] at hf hon
  rcases driveBus_cases e ht with ⟨code, rfl⟩ | ⟨-, rfl⟩
  · exact Live.takeFault_inv (s := { s with bus := rest }) hl code
  · let u : State := { s with bus := rest, ops := s.ops + 1 }
    refine Live.settle_inv (s := applyOp op u) (Live.applyOp (s := u) hl op) (by simpa using hs) ?_ ?_ ?_ ?_
    · simpa using h.posOk hh
    · rw [applyOp_pos]
      exact registersAt_applyOp (s := u) op h.registers
    · rw [applyOp_bus]
      exact framed_applyOp (s := u) hf
    · simpa [busOnPanel] using (Bool.and_eq_true_iff.mp hon).2

/-- Bytes inside a transaction keep its framing, up to the end of it. -/
theorem framed_bytes (bytes : List Byte) (rest : List BusOp) :
    framed .assert (bytes.map (fun b => .xfer b none) ++ .cs .deassert :: rest) = framed .deassert rest := by
  induction bytes with
  | nil => rfl
  | cons b bytes ih => exact ih

/-- A whole transaction goes from chip-select deasserted to chip-select deasserted (10_state R47). -/
theorem framed_transaction (l : DcLevel) (bytes : List Byte) (rest : List BusOp) :
    framed .deassert (transaction l (bytes.map (fun b => .xfer b none)) ++ rest) = framed .deassert rest := by
  rw [transaction, List.append_assoc, List.append_assoc]
  exact framed_bytes bytes rest

/-- So does a data burst, one transaction or one a byte (00_scope R13). -/
theorem framed_sendDataOps (fr : Framing) (bytes : List Byte) : framed .deassert (sendDataOps fr bytes) = true := by
  cases hb : bytes with
  | nil => rfl
  | cons b rest =>
    cases fr with
    | perBurst => simpa [sendDataOps, framed] using framed_transaction .data (b :: rest) []
    | perByte =>
      rw [← hb]
      have hbytes : framed .deassert (bytes.flatMap (fun b => transaction .data [.xfer b none])) = true := by
        clear hb
        induction bytes with
        | nil => rfl
        | cons b bytes ih => rw [List.flatMap_cons]; exact (framed_transaction .data [b] _).trans ih
      rw [hb] at hbytes ⊢
      exact hbytes

/-- And so does a wire command. -/
theorem framed_wordOps (fr : Framing) (w : WireWord) : framed .deassert (wordOps fr w) = true :=
  (framed_transaction .cmd w.cmd _).trans (framed_sendDataOps fr w.data)

/-- The pixel byte of a position is for a unit of the panel (20_memory R90). -/
theorem epdPixelDest_onPanel (hr : registersAt s .epdNextGroup) : (fmAddr .epd (epdPixelDest s.epd)).isSome = true := by
  obtain ⟨⟨hxa, hxa8, hxe8, hxe, hye⟩, hj, hje, hg, hgn, -⟩ := hr
  simp only [epdGroupCount] at hgn
  rw [fmAddr, if_pos (by simp only [fmExtent, epdPixelDest]; omega)]
  rfl

theorem goledPixelDest_onPanel (hr : registersAt s .goledNextPair) :
    (fmAddr .goled (goledPixelDest s.goled)).isSome = true := by
  obtain ⟨⟨hxc, hce, hre⟩, hr0, hrr, hc, hcc⟩ := hr
  rw [fmAddr, if_pos (by simp only [fmExtent, goledPixelDest]; omega)]
  rfl

theorem woledPixelDest_onPanel (hr : registersAt s .woledNextColumn) :
    (fmAddr .woled (woledPixelDest s.woled)).isSome = true := by
  obtain ⟨⟨hpg, hxe, hpe⟩, hp0, hpp, hc, hcc, -⟩ := hr
  rw [fmAddr, if_pos (by simp only [fmExtent, woledPixelDest]; omega)]
  rfl

/-- The sequencer's commands are on the wire of the block's own variant (30_encoding R123). -/
theorem wireVariant_of_decode {w : WireWord} {i : Instr} (hd : decode ⟨wireSpace s, w⟩ = .ok i) :
    wireVariant i = some s.cfg.variant := by
  have hsp : (encode i).space = wireSpace s := decode_space hd
  unfold wireVariant
  rw [hsp, wireSpace]
  cases s.cfg.variant with
  | epd => rfl
  | goled => by_cases hm : s.mode = .initializing <;> simp [hm]
  | woled => rfl

/-- In the states of the invariant the pixel byte due is for a unit of the panel (20_memory R90). -/
theorem Inv.pixelAddr_isSome (h : Inv s) (hp : isAfterPixelByte s.pos = true) : (pixelAddr s).isSome = true := by
  have hv := h.pos
  have hr := h.registers
  cases e : s.pos <;> rw [e] at hp hv hr <;> try contradiction
  case epdNextGroup =>
    rw [pixelAddr, eq_of_beq hv]
    exact epdPixelDest_onPanel hr
  case goledNextPair =>
    rw [pixelAddr, eq_of_beq hv]
    exact goledPixelDest_onPanel hr
  case woledNextColumn =>
    rw [pixelAddr, eq_of_beq hv]
    exact woledPixelDest_onPanel hr

/-- The command due in a state of the invariant goes on the bus as operations framed by chip-select, every pixel byte of
them for a unit of the panel. -/
theorem Inv.exec_due {w : WireWord} {i : Instr} (h : Inv s) (hs : s.send = some w)
    (hd : decode ⟨wireSpace s, w⟩ = .ok i) :
    ∃ op rest, exec i s = issue s.cfg.variant (op :: rest) s ∧ framed .deassert (op :: rest) = true ∧
      busOnPanel s.cfg.variant (op :: rest) = true := by
  have hv := wireVariant_of_decode hd
  have hsend := h.send w hs
  rw [sendOk, hd] at hsend
  cases hpx : isPixelData i with
  | false =>
    exact ⟨_, _, exec_eq_issue_wordOps hv hpx s, framed_wordOps _ _, busOnPanel_wordOps _ _ _⟩
  | true =>
    have hafter : isAfterPixelByte s.pos = true := by
      simp only [hpx, Bool.not_true, Bool.false_or, Bool.and_eq_true] at hsend
      exact hsend.1
    have haddr := h.pixelAddr_isSome hafter
    cases i <;> simp only [isPixelData, Bool.false_eq_true] at hpx <;> obtain hv := Option.some.inj hv
    all_goals
      rw [pixelAddr, ← hv] at haddr
      rw [← hv]
      exact ⟨_, _, rfl, rfl, by simpa [busOnPanel, sendPixelOps, transaction] using haddr⟩

/-- A wire command that is due goes on the bus, in a state of the invariant, and the first of its events happens. -/
theorem Inv.exec_due_drives {w : WireWord} {i : Instr} (h : Inv s) (hm : s.mode ≠ .halted) (hs : s.send = some w)
    (hd : decode ⟨wireSpace s, w⟩ = .ok i) :
    ∃ op rest, exec i s = driveBus { s with send := none, bus := op :: rest } ∧
      Inv { s with send := none, bus := op :: rest } := by
  have hb : s.bus = [] := h.sendFree (by simp [hs])
  have hh : isHalting s.pos = false := by
    by_contra hn
    simpa [hs] using (h.ended (by simpa using hn)).1
  have hcs := h.cs_deassert hm hh (.inl hb)
  obtain ⟨op, rest, he, hf, hon⟩ := h.exec_due hs hd
  obtain ⟨h1, h2, h3, -⟩ := posOk_iff.mp (h.posOk hh)
  refine ⟨op, rest, he.trans ?_, Live.inv (h.live hm) h1 h2 h3 h.registers (fun _ => by rw [hcs]; exact hf) hon
    (fun hn => absurd rfl hn) nofun (fun _ => .inr nofun) (fun hn => absurd (hh.symm.trans hn) nofun)⟩
  simp [issue, hm, hb]

/-! ### Reads keep the invariant -/

/-- A read of an input changes only the schedule of changed inputs and the count of free draws. -/
theorem hostRead_snd_eq {α : Type} (v : α) (free : Byte → α) (s : State) :
    ∃ ch d, (hostRead v free s).2 = { s with changed := ch, draws := d } := by
  rcases hostRead_cases v free s with ⟨-, e⟩ | ⟨rest, -, e⟩ | ⟨rest, -, e⟩ <;> rw [e]
  · exact ⟨s.changed, s.draws, rfl⟩
  · exact ⟨rest, s.draws, rfl⟩
  · exact ⟨rest, s.draws + 1, rfl⟩

theorem pixRead_snd_eq (c : Color) (s : State) : ∃ ch d, (pixRead c s).2 = { s with changed := ch, draws := d } := by
  unfold pixRead
  split
  · exact hostRead_snd_eq _ _ s
  · exact hostRead_snd_eq _ _ s
  all_goals exact ⟨s.changed, s.draws, rfl⟩

theorem strRead_snd_eq (s : State) : ∃ ch d, (strRead s).2 = { s with changed := ch, draws := d } := by
  unfold strRead
  split
  · exact hostRead_snd_eq _ _ s
  · exact ⟨_, _, rfl⟩

theorem sampleBusy_eq (s : State) : ∃ busyIn busyReads, sampleBusy s =
    { s with trace := s.trace ++ [.busySample (busyAsserted s)], busyIn := busyIn, busyReads := busyReads } := by
  rcases busyNext_cases (emit (.busySample (busyAsserted s)) s) with ⟨l, rest, -, e⟩ | ⟨-, e⟩ <;> rw [sampleBusy, e]
  · exact ⟨rest, s.busyReads, rfl⟩
  · exact ⟨s.busyIn, s.busyReads + 1, rfl⟩

/-- A query keeps the invariant where what is done with its Color does; outside the adapter's buffer it takes a
fault. -/
theorem Live.query_inv {px py : Int} {k : Color → State → State} (h : Live s)
    (hk : ∀ c ch d, Inv (k c { s with changed := ch, draws := d })) : Inv (query px py s k) := by
  rcases query_cases px py s k with ⟨c, -, e⟩ | ⟨-, e⟩ <;> rw [e]
  · obtain ⟨ch, d, e'⟩ := pixRead_snd_eq c s
    rw [e']
    exact hk _ ch d
  · exact h.takeFault_inv _

theorem Free.epdReadPixel_inv (h : Free s) (hv : s.cfg.variant = .epd) (hm : s.mode = .writing) (hp : s.pos = .epdPixel)
    (hr : registersAt s .epdPixel) : Inv (epdReadPixel s) := by
  refine h.1.query_inv fun c ch d => ?_
  dsimp only
  split
  · next hk =>
    obtain ⟨hw, hj, hje, hg, hgn, -⟩ := hr
    refine Free.inv_at h (posOk_intro hv hm (by rw [hp]; rfl) (by rw [hp]; rfl)) (by rw [hp]; rfl) ?_
    rw [hp]
    exact ⟨hw, hj, hje, hg, hgn, hk⟩
  · exact Free.inv_standAt h (posOk_intro hv hm) hr (sendOk_pixel (by simp [hm]) rfl)

theorem Free.goledReadLeft_inv (h : Free s) (hv : s.cfg.variant = .goled) (hm : s.mode = .writing)
    (hr : registersAt s .goledLeft) : Inv (goledReadLeft s) :=
  h.1.query_inv fun _ _ _ => Free.inv_at h (posOk_intro hv hm) rfl hr

theorem Free.goledReadRight_inv (h : Free s) (hv : s.cfg.variant = .goled) (hm : s.mode = .writing)
    (hr : registersAt s .goledRight) : Inv (goledReadRight s) :=
  h.1.query_inv fun _ _ _ => Free.inv_standAt h (posOk_intro hv hm) hr (sendOk_pixel (by simp [hm]) rfl)

theorem Free.woledReadPixel_inv (h : Free s) (hv : s.cfg.variant = .woled) (hm : s.mode = .writing)
    (hp : s.pos = .woledPixel) (hr : registersAt s .woledPixel) : Inv (woledReadPixel s) := by
  refine h.1.query_inv fun c ch d => ?_
  dsimp only
  split
  · obtain ⟨hw, hp0, hpe, hc, hcx, hoff⟩ := hr
    refine Free.inv_at h (posOk_intro hv hm (by rw [hp]; rfl) (by rw [hp]; rfl)) (by rw [hp]; rfl) ?_
    rw [hp]
    exact ⟨hw, hp0, hpe, hc, hcx, (Nat.sub_le _ _).trans hoff⟩
  · exact Free.inv_standAt h (posOk_intro hv hm) hr (sendOk_pixel (by simp [hm]) rfl)

theorem Free.readChar_inv (h : Free s) (hm : s.mode = .writing) : Inv (readChar s) := by
  obtain ⟨ch, d, e⟩ := strRead_snd_eq s
  unfold readChar
  dsimp only
  rw [e]
  exact Free.inv_at h (posOk_intro rfl hm) rfl trivial

theorem Free.readGlyph_inv (h : Free s) (hm : s.mode = .writing) (hp : s.pos = .readGlyph) : Inv (readGlyph s) := by
  obtain ⟨ch, d, e⟩ := hostRead_snd_eq (glyphBit s.cfg s.text.ch s.text.gr s.text.gc) (fun b => b.getLsbD 0) s
  have hok : posOk s.cfg s.mode s.pos = true := by rw [hp]; exact posOk_intro rfl hm
  unfold readGlyph glyphRead
  dsimp only
  rw [e]
  split
  · exact Free.inv_at h hok (by rw [hp]; rfl) (by rw [hp]; trivial)
  · split
    · exact Free.inv_at h hok (by rw [hp]; rfl) (by rw [hp]; trivial)
    · exact Free.startWrite_inv h (fun _ => hm)

/-! ### The event or read at a point keeps the invariant -/

/-- The end of a busy wait, at each of its places (41_epaper R230). -/
theorem Free.waitDone_inv {site : WaitSite} (h : Free s) (hp : posOk s.cfg s.mode (.sample site) = true)
    (hr : registersAt s (.sample site)) : Inv (waitDone site s) := by
  obtain ⟨hv, hm, hi, -⟩ := posOk_iff.mp hp
  replace hv : s.cfg.variant = .epd := eq_of_beq hv
  cases site with
  | init rest =>
    exact Free.resume_inv (s := { s with pos := .epdInit rest }) h (posOk_intro hv (eq_of_beq hm) rfl hi) trivial
  | pointer =>
    exact Free.inv_standAt (h.withMode nofun (modeOfVariant_writing _)) (posOk_intro hv rfl) hr
      (sendOk_epd hv (by decide))
  | commit => exact Free.finishRequest_inv ⟨{ h.1 with vis := h.1.fm }, h.2⟩

/-- A busy sample: another poll, or the end of the wait. -/
theorem Free.sample_inv {site : WaitSite} (h : Free s) (hp : posOk s.cfg s.mode (.sample site) = true)
    (hr : registersAt s (.sample site)) :
    Inv (if busyAsserted s then { sampleBusy s with pos := .poll site } else waitDone site (sampleBusy s)) := by
  obtain ⟨bi, br, e⟩ := sampleBusy_eq s
  rw [e]
  split
  · refine Free.inv_at h ?_ rfl (by cases site <;> exact hr)
    cases site <;> exact hp
  · exact Free.waitDone_inv (s := { s with
      trace := s.trace ++ [.busySample (busyAsserted s)], busyIn := bi, busyReads := br }) h hp hr

/-- Every action of an admitted EPD_INIT_SEQ is legal (41_epaper R205). -/
theorem epdInitSeq_all {c : Config} (hc : c.wf = true) : c.epdInitSeq.all initActionOk = true := by
  simp only [Config.wf, epdInitSeqOk, Bool.and_eq_true] at hc
  obtain ⟨⟨hall, -⟩, -⟩ := hc
  exact hall

/-- With nothing due and nothing on the bus, the sequencer is not at a move. -/
theorem Inv.isMove_eq_false (h : Inv s) (hb : s.bus = []) (hs : s.send = none) : isMove s.pos = false := by
  by_contra hn
  exact (h.due (by simpa using hn)).elim (· hs) (· hb)

/-- The event or read at a point keeps the invariant: each goes to the next point of its algorithm, or takes a fault. -/
theorem Inv.seqStep_inv (h : Inv s) (hm : s.mode ≠ .halted) (hb : s.bus = []) (hs : s.send = none) :
    Inv (seqStep s) := by
  have hl := h.live hm
  have hnm := h.isMove_eq_false hb hs
  cases hh : isHalting s.pos with
  | true =>
    cases e : s.pos <;> simp only [e, isHalting, Bool.false_eq_true] at hh
    next code =>
      simp only [seqStep, e]
      exact hl.halt_inv code
  | false =>
    have hf := h.free hm hh hb hs
    have hok := h.posOk hh
    have hv := h.pos
    have hmp := h.modePos
    have hi := h.initRest
    have hr := h.registers
    unfold seqStep
    cases e : s.pos <;> rw [e] at hh hnm hok hv hmp hi hr <;> dsimp only
    case halting code => cases hh
    case idle => exact h
    case raising code => exact hl.takeFault_inv code
    case respond v => exact Free.finishRequest_inv hf
    case resetLow => exact hl.pinOp_inv (Free.inv_at hf (posOk_intro (eq_of_beq hv) (eq_of_beq hmp)) rfl trivial)
    case resetHold => exact Free.inv_at hf (posOk_intro (eq_of_beq hv) (eq_of_beq hmp)) rfl trivial
    case resetHigh => exact hl.pinOp_inv (Free.inv_at hf (posOk_intro (eq_of_beq hv) (eq_of_beq hmp)) rfl trivial)
    case resetSettle =>
      exact Free.epdInitNext_inv (hf.withMode nofun (modeOfVariant_initializing _)) (eq_of_beq hv) rfl
        (epdInitSeq_all hl.config)
    case pause ms rest => exact Free.epdInitNext_inv hf (eq_of_beq hv) (eq_of_beq hmp) hi
    case sample site => exact hl.pinOp_inv (Free.sample_inv hf hok hr)
    case poll site =>
      refine Free.inv_at hf ?_ rfl (by cases site <;> exact hr)
      cases site <;> exact hok
    case epdPixel => exact hf.epdReadPixel_inv (eq_of_beq hv) (eq_of_beq hmp) e hr
    case goledPre =>
      exact Free.goledInitNext_inv hf (eq_of_beq hv) (eq_of_beq hmp) (by simp)
    case goledPost => exact Free.finishRequest_inv hf
    case goledLeft => exact hf.goledReadLeft_inv (eq_of_beq hv) (eq_of_beq hmp) hr
    case goledRight => exact hf.goledReadRight_inv (eq_of_beq hv) (eq_of_beq hmp) hr
    case woledDelay1 => exact Free.inv_at hf (posOk_intro (eq_of_beq hv) (eq_of_beq hmp)) rfl trivial
    case woledDelay2 => exact Free.woledInitNext_inv hf (eq_of_beq hv) (eq_of_beq hmp) rfl
    case woledPixel => exact hf.woledReadPixel_inv (eq_of_beq hv) (eq_of_beq hmp) e hr
    case readChar => exact hf.readChar_inv (eq_of_beq hmp)
    case readGlyph => exact hf.readGlyph_inv (eq_of_beq hmp) e
    all_goals cases hnm

/-! ### Accepting a request keeps the invariant -/

/-- A request begins, or comes to raise a fault. -/
theorem Free.serve_inv {isInit : Bool} {l : Latch} {ok : Bool} {go : State → State} (h : Free s)
    (hm : s.mode = .uninit ∨ s.mode = .idle) (ht : serve isInit l ok go s = .next t)
    (hgo : (s.mode = .uninit ∧ isInit = true) ∨ (s.mode = .idle ∧ isInit = false) → Inv (go { s with latch := l })) :
    Inv t := by
  have hfault : ∀ code, Inv (raiseFault code { s with latch := l }) :=
    Free.raiseFault_inv (s := { s with latch := l }) h
  rcases serve_cases isInit l ok go s with ⟨hc, e⟩ | ⟨-, e⟩ | ⟨-, -, -, e⟩ | ⟨hu, hi, -⟩
  · obtain rfl := Host.Outcome.next.inj (e.symm.trans ht)
    exact hgo (hc.imp_right fun ⟨hidle, hno, _⟩ => ⟨hidle, hno⟩)
  · obtain rfl := Host.Outcome.next.inj (e.symm.trans ht)
    exact hfault _
  · obtain rfl := Host.Outcome.next.inj (e.symm.trans ht)
    exact hfault _
  · exact absurd hm (not_or.mpr ⟨hu, hi⟩)

/-- A frame write begins over a source of its own. -/
theorem Free.serve_startWrite_inv {l : Latch} {ok : Bool} {src : PixSource} (h : Free s) (hsrc : src ≠ .text)
    (hm : s.mode = .uninit ∨ s.mode = .idle)
    (ht : serve false l ok (fun s => startWrite { s with src := src }) s = .next t) : Inv t :=
  h.serve_inv hm ht fun _ =>
    Free.startWrite_inv (s := { s with latch := l, src := src }) h fun htext => absurd htext hsrc

/-- INIT begins the unit's initialisation (40 R164). -/
theorem Free.execInit_inv (h : Free s) (hm : s.mode = .uninit ∨ s.mode = .idle) (ht : execInit s = .next t) :
    Inv t := by
  refine h.serve_inv hm ht fun _ => ?_
  dsimp only
  split
  · next hv =>
    exact Free.inv_at (h.withMode nofun (by rw [hv]; rfl)) (posOk_intro hv rfl) rfl trivial
  · next hv =>
    exact Free.inv_at (h.withMode nofun (modeOfVariant_initializing _)) (posOk_intro hv rfl) rfl trivial
  · next hv =>
    exact Free.inv_at (h.withMode nofun (modeOfVariant_initializing _)) (posOk_intro hv rfl) rfl trivial

/-- DISPLAY_FRAME begins the EPD commit, or ends at once (40 R170). -/
theorem Free.execDisplayFrame_inv (h : Free s) (hm : s.mode = .uninit ∨ s.mode = .idle)
    (ht : execDisplayFrame s = .next t) : Inv t := by
  refine h.serve_inv hm ht fun _ => ?_
  dsimp only
  split
  · next hv =>
    exact Free.inv_standAt (h.withMode nofun (by rw [hv]; rfl)) (posOk_intro hv rfl) trivial (sendOk_epd hv (by decide))
  all_goals exact Free.finishRequest_inv h

/-- DRAW_TEXT begins at its cursor, which is not left of the panel (44_text R331). -/
theorem Free.execDrawText_inv {fg bg : Byte} {x y n : Half} (h : Free s) (hm : s.mode = .uninit ∨ s.mode = .idle)
    (ht : execDrawText fg bg x y n s = .next t) : Inv t := by
  refine h.serve_inv hm ht fun _ => ?_
  have hf : Free { s with text := { s.text with cx := (x.toNat : Int) } } :=
    ⟨{ h.1 with cursor := Int.natCast_nonneg _ }, h.2⟩
  dsimp only
  split
  · exact Free.finishRequest_inv hf
  · exact Free.inv_at (hf.withMode nofun (modeOfVariant_writing _)) (posOk_intro rfl rfl) rfl trivial

/-- A read accessor comes to its response, in IDLE (40 R171). -/
theorem Free.respond_inv {op : Byte} {v : Half} (h : Free s) (hm : s.mode = .uninit ∨ s.mode = .idle)
    (ht : respond op v s = .next t) : Inv t := by
  refine h.serve_inv hm ht fun hc => ?_
  exact Free.inv_at h (posOk_intro rfl (hc.resolve_left nofun).1) rfl trivial

/-- Every request keeps the invariant as it is accepted, checked and begun. -/
theorem Free.exec_request_inv {i : Instr} (h : Free s) (hm : s.mode = .uninit ∨ s.mode = .idle)
    (hi : (encode i).space = .request) (ht : exec i s = .next t) : Inv t := by
  cases i
  case init => exact h.execInit_inv hm ht
  case setFrameCallback => exact h.serve_startWrite_inv (src := .callback) nofun hm ht
  case setFrameBuffer => exact h.serve_startWrite_inv (src := .buffer) nofun hm ht
  case clearFrame => exact h.serve_startWrite_inv (src := .constant) nofun hm ht
  case displayFrame => exact h.execDisplayFrame_inv hm ht
  case drawText => exact h.execDrawText_inv hm ht
  case rdWidth => exact h.respond_inv hm ht
  case rdHeight => exact h.respond_inv hm ht
  case rdPpb => exact h.respond_inv hm ht
  case rdLight => exact h.respond_inv hm ht
  case rdDark => exact h.respond_inv hm ht
  all_goals cases hi

/-! ### One step keeps the invariant -/

/-- Where a wire command is due, a step runs it, decoded in the space of its variant. -/
theorem step_send {w : WireWord} {i : Instr} (hm : s.mode ≠ .halted) (hb : s.bus = []) (hs : s.send = some w)
    (hd : decode ⟨wireSpace s, w⟩ = .ok i) : step s = exec i s := by
  have hf : fetch s = some (⟨wireSpace s, w⟩, s) := by simp [fetch, hb, hs]
  simp only [step, if_neg hm, hf, hd]

/-- With no request in progress and none accepted, a step waits. -/
theorem step_wait (hb : s.bus = []) (hs : s.send = none) (hp : s.pos = .idle)
    (hn : ¬ ((s.mode = .uninit ∨ s.mode = .idle) ∧ s.host ≠ [])) : step s = .next s := by
  have hnone : presented s = none := by
    unfold presented
    cases hmode : s.mode <;> simp_all
  unfold step fetch advance
  rw [hb, hs]
  simp [hnone, seqStep, hp]

/-- The branches of a step outside HALTED: an operation on the bus, a wire command due, the event or read at a point, a
request accepted, or a wait. -/
theorem step_branches (s : State) (hm : s.mode ≠ .halted) :
    (s.bus ≠ [] ∧ step s = driveBus s) ∨
    (s.bus = [] ∧ ∃ w, s.send = some w) ∨
    (s.bus = [] ∧ s.send = none ∧ s.pos ≠ .idle ∧ step s = .next (seqStep s)) ∨
    (s.bus = [] ∧ s.send = none ∧ s.pos = .idle ∧ (s.mode = .uninit ∨ s.mode = .idle) ∧ ∃ r rest, s.host = r :: rest) ∨
    (s.pos = .idle ∧ step s = .next s) := by
  by_cases hb : s.bus = []
  · cases hs : s.send with
    | some w => exact .inr (.inl ⟨hb, w, rfl⟩)
    | none =>
      by_cases hp : s.pos = .idle
      · by_cases ha : (s.mode = .uninit ∨ s.mode = .idle) ∧ s.host ≠ []
        · exact .inr (.inr (.inr (.inl ⟨hb, rfl, hp, ha.1, List.exists_cons_of_ne_nil ha.2⟩)))
        · exact .inr (.inr (.inr (.inr ⟨hp, step_wait hb hs hp ha⟩)))
      · exact .inr (.inr (.inl ⟨hb, rfl, hp, step_point hm hb hs hp⟩))
  · exact .inl ⟨hb, step_bus hm hb⟩

/-- The command due in a state of the invariant is one of the variant (30_encoding R129). -/
theorem Inv.send_decodes {w : WireWord} (h : Inv s) (hs : s.send = some w) : ∃ i, decode ⟨wireSpace s, w⟩ = .ok i := by
  have hsend := h.send w hs
  rw [sendOk] at hsend
  split at hsend
  · next i hd => exact ⟨i, hd⟩
  · cases hsend

/-- A request accepted in a state of the invariant, whatever its descriptor. -/
theorem Inv.accept_inv {r : HostRequest} {rest : List HostRequest} (h : Inv s) (hm : s.mode = .uninit ∨ s.mode = .idle)
    (hp : s.pos = .idle) (hb : s.bus = []) (hs : s.send = none) (hh : s.host = r :: rest) (ht : step s = .next t) :
    Inv t := by
  have hf : Free s := h.free (by rcases hm with hm | hm <;> simp [hm]) (by rw [hp]; rfl) hb hs
  rw [step_accept hm hp hb hs hh] at ht
  split at ht
  · next i hd => exact Free.exec_request_inv (s := accept r s) hf hm (decode_space hd) ht
  · obtain rfl := Host.Outcome.next.inj ht
    exact Free.raiseFault_inv (s := accept r s) hf _

/-- Settles O56, by the branches of a step. -/
theorem everyStepKeepsTheInvariant : Obligations.EveryStepKeepsTheInvariant := by
  unfold Obligations.EveryStepKeepsTheInvariant
  intro s t h ht
  by_cases hm : s.mode = .halted
  · rw [step, if_pos hm] at ht
    exact Host.Outcome.next.inj ht ▸ h
  rcases step_branches s hm with ⟨hb, e⟩ | ⟨hb, w, hs⟩ | ⟨hb, hs, -, e⟩ | ⟨hb, hs, hp, ha, r, rest, hh⟩ | ⟨-, e⟩
  · exact h.driveBus_inv hm hb (e.symm.trans ht)
  · obtain ⟨i, hd⟩ := h.send_decodes hs
    obtain ⟨op, rest, he, hbus⟩ := h.exec_due_drives hm hs hd
    exact hbus.driveBus_inv hm nofun (he.symm.trans ((step_send hm hb hs hd).symm.trans ht))
  · exact Host.Outcome.next.inj (e.symm.trans ht) ▸ h.seqStep_inv hm hb hs
  · exact h.accept_inv ha hp hb hs hh ht
  · exact Host.Outcome.next.inj (e.symm.trans ht) ▸ h

end Sys2Proof.Machine
end

section
/-! SUPPORT and PROOFS. The statements of 10_state: a step and the instruction it runs (O1), acceptance (O7), HALTED (O8), one
event a step (O10), power-on and the configuration registers (O16, O17), the busy input (O49), MODE (O58) and the pins (O60). -/

namespace Sys2Proof.Machine

variable {s t : State}

/-! ### One event, seen from the fields it changes -/

/-- What an event other than Diag and Halt keeps. -/
theorem EventOf.keeps (h : EventOf s t) :
    t.cfg = s.cfg ∧ t.haltCause = s.haltCause ∧ t.host = s.host ∧ ∃ e, t.trace = s.trace ++ [e] := by
  cases h with
  | sample site hp => simp
  | _ => exact ⟨rfl, rfl, rfl, _, rfl⟩

/-- The first event of a fault is Diag or Halt. -/
theorem takeFault_trace (code : FaultCode) (s : State) : ∃ e, (takeFault code s).trace = s.trace ++ [e] := by
  rcases takeFault_cases code s with ⟨-, e⟩ | ⟨-, e⟩ <;> rw [e]
  · exact ⟨.diag, rfl⟩
  · exact ⟨.halt code, rfl⟩

/-- One event enters the trace, and takes no request and no parameter with it. -/
theorem OneEvent.keeps (h : OneEvent s t) : t.cfg = s.cfg ∧ t.host = s.host ∧ ∃ e, t.trace = s.trace ++ [e] := by
  rcases h with ⟨u, hu, hk⟩ | ⟨code, u, hk, rfl⟩ | ⟨code, -, rfl⟩
  · obtain ⟨hc, -, hh, e, he⟩ := hu.keeps
    exact ⟨hk.cfg.trans hc, hk.host.trans hh, e, hk.trace.trans he⟩
  · obtain ⟨e, he⟩ := takeFault_trace code u
    exact ⟨(takeFault_cfg code u).trans hk.cfg, (takeFault_host code u).trans hk.host, e, he.trans (by rw [hk.trace])⟩
  · exact ⟨rfl, rfl, .halt code, rfl⟩

/-! ### A step and the instruction it runs -/

/-- Settles O1: the wire command due, and the request accepted. -/
theorem stepRunsTheDecodedInstruction : Obligations.StepRunsTheDecodedInstruction := by
  unfold Obligations.StepRunsTheDecodedInstruction
  refine ⟨fun s w i hm hb hs hd => step_send hm hb hs hd, fun s r rest i hm hp hb hs hh hd => ?_⟩
  rw [step_accept hm hp hb hs hh]
  simp only [hd, accept, hh, List.tail_cons]

/-! ### Acceptance -/

/-- A little-endian field as a number (30_encoding R120). -/
theorem half_toNat (lo hi : Byte) : (half lo hi).toNat = lo.toNat + 256 * hi.toNat := by
  rw [half, BitVec.toNat_append, ← Nat.shiftLeft_add_eq_or_of_lt lo.isLt, Nat.shiftLeft_eq]
  omega

/-- A field is its low byte and its high byte (30_encoding R120). -/
theorem half_lo8_hi8 (v : Half) : half (lo8 v) (hi8 v) = v := by
  unfold half lo8 hi8
  ext i hi
  simp only [BitVec.getElem_append, BitVec.getElem_extractLsb']
  split
  · simp [BitVec.getLsbD_eq_getElem hi]
  · next h => rw [show 8 + (i - 8) = i by omega, BitVec.getLsbD_eq_getElem hi]

/-- The latch a request's descriptor is copied into. -/
theorem latchOf_descriptor (op c0 c1 : Byte) (x y w h : Half) :
    latchOf (descOf (descriptor op c0 c1 x y w h).word.cmd) = ⟨op, c0, c1, 0, x, y, w, h⟩ := by
  simp [descriptor, descOf, latchOf, half_lo8_hi8]

@[simp] theorem nextChar_latch (s : State) : (nextChar s).latch = s.latch := by
  unfold nextChar
  dsimp only
  split <;> rfl

@[simp] theorem writeDone_latch (s : State) : (writeDone s).latch = s.latch := by
  unfold writeDone
  split
  · exact nextChar_latch s
  all_goals rfl

@[simp] theorem startWrite_latch (s : State) : (startWrite s).latch = s.latch := by
  unfold startWrite
  dsimp only
  split
  · split <;> rfl
  · split
    · exact writeDone_latch s
    · split <;> rfl
  · split <;> rfl

/-- In a mode that accepts requests, a request whose start keeps the latch is latched, whatever its checks answer. -/
theorem serve_latched {isInit : Bool} {l : Latch} {ok : Bool} {go : State → State}
    (hm : s.mode = .uninit ∨ s.mode = .idle) (hgo : ∀ u, (go u).latch = u.latch) :
    ∃ t, serve isInit l ok go s = .next t ∧ t.latch = l := by
  rcases serve_cases isInit l ok go s with ⟨-, e⟩ | ⟨-, e⟩ | ⟨-, -, -, e⟩ | ⟨hu, hi, -⟩
  · exact ⟨_, e, hgo _⟩
  · exact ⟨_, e, rfl⟩
  · exact ⟨_, e, rfl⟩
  · exact absurd hm (not_or.mpr ⟨hu, hi⟩)

/-- Every request is served from its own fields, and its start keeps the latch. -/
theorem exec_request_eq_serve {i : Instr} (hi : (encode i).space = .request) (s : State) :
    ∃ isInit ok go, exec i s = serve isInit (requestLatch i) ok go s ∧ ∀ u, (go u).latch = u.latch := by
  cases i <;> try contradiction
  all_goals rw [requestLatch, encode, latchOf_descriptor, exec]
  case init => exact ⟨_, _, _, rfl, fun u => by split <;> rfl⟩
  case setFrameCallback => exact ⟨_, _, _, rfl, fun u => startWrite_latch _⟩
  case setFrameBuffer => exact ⟨_, _, _, rfl, fun u => startWrite_latch _⟩
  case clearFrame => exact ⟨_, _, _, rfl, fun u => startWrite_latch _⟩
  case displayFrame => exact ⟨_, _, _, rfl, fun u => by split <;> rfl⟩
  case drawText => exact ⟨_, _, _, rfl, fun u => by split <;> rfl⟩
  all_goals exact ⟨false, true, fun u => { u with pos := .respond _ }, rfl, fun u => rfl⟩

/-- In a mode that accepts requests every request answers a next state, its fields latched (30_encoding R110, R111). -/
theorem exec_request_latched {i : Instr} (hi : (encode i).space = .request) (hm : s.mode = .uninit ∨ s.mode = .idle) :
    ∃ t, exec i s = .next t ∧ t.latch = requestLatch i := by
  obtain ⟨isInit, ok, go, e, hgo⟩ := exec_request_eq_serve hi s
  rw [e]
  exact serve_latched hm hgo

/-- A field that 30_encoding R112 marks "0" is 0 in a descriptor that decodes, and so is RSV: the latch of the request
is that of the descriptor. -/
theorem requestLatch_of_decodeRequest {op c0 c1 rsv : Byte} {x y w h : Half} {i : Instr}
    (hd : decodeRequest op c0 c1 rsv x y w h = .ok i) : requestLatch i = ⟨op, c0, c1, rsv, x, y, w, h⟩ := by
  unfold decodeRequest at hd
  split at hd
  · cases hd
  next j hj =>
  split at hd
  swap
  · cases hd
  next hrsv =>
  obtain rfl := Except.ok.inj hd
  obtain rfl := eq_of_beq hrsv
  unfold decodeOp whenZero at hj
  dsimp only at hj
  split at hj
  case h_12 => cases hj
  all_goals
    next hop =>
    have hop8 := BitVec.ofNat_toNat 8 op
    rw [BitVec.setWidth_eq, hop] at hop8
    subst hop8
    split at hj
    swap
    · cases hj
    next hz =>
    obtain rfl := Except.ok.inj hj
    simp only [Bool.and_eq_true, beq_iff_eq] at hz
    simp [requestLatch, encode, latchOf_descriptor, hz]

/-- The 12 bytes of a descriptor, one by one. -/
theorem desc_toList (d : Vector Byte 12) :
    d.toList = [d[0], d[1], d[2], d[3], d[4], d[5], d[6], d[7], d[8], d[9], d[10], d[11]] := by
  refine List.ext_getElem (by simp) fun k h1 h2 => ?_
  simp only [Vector.length_toList] at h1
  interval_cases k <;> simp

/-- A descriptor that decodes is copied into the latch of its request. -/
theorem requestLatch_of_decode {d : Vector Byte 12} {i : Instr} (hd : decode ⟨.request, ⟨d.toList, []⟩⟩ = .ok i) :
    requestLatch i = latchOf d := by
  rw [desc_toList] at hd
  exact requestLatch_of_decodeRequest hd

/-- Accepting a request copies its descriptor into the latch, whatever it is. -/
theorem step_accept_latched {r : HostRequest} {rest : List HostRequest} (hm : s.mode = .uninit ∨ s.mode = .idle)
    (hp : s.pos = .idle) (hb : s.bus = []) (hs : s.send = none) (hh : s.host = r :: rest) :
    ∃ t, step s = .next t ∧ t.latch = latchOf r.desc ∧ Keeps (accept r s) t := by
  cases hd : decode ⟨.request, ⟨r.desc.toList, []⟩⟩ with
  | error e =>
    exact ⟨raiseFault .illegalRequest (accept r s), by simp only [step_accept hm hp hb hs hh, hd], rfl,
      raiseFault_keeps _ _⟩
  | ok i =>
    have hi := decode_space hd
    obtain ⟨t, ht, hl⟩ := exec_request_latched (s := accept r s) hi hm
    exact ⟨t, by simp only [step_accept hm hp hb hs hh, hd, ht], hl.trans (requestLatch_of_decode hd),
      exec_request_keeps hi ht⟩

/-- Settles O7: the step that accepts, and that no other step takes a request. -/
theorem acceptance : Obligations.Acceptance := by
  unfold Obligations.Acceptance
  refine ⟨fun s r rest hm hp hb hs hh => ?_, fun s t ht => ?_⟩
  · obtain ⟨t, ht, hl, hk⟩ := step_accept_latched hm hp hb hs hh
    refine ⟨t, ht, hk.trace, hk.host.trans (by simp [hh]), hk.ports, ?_⟩
    simp only [hl, latchOf, half_toNat, and_self]
  · rcases step_cases ht with ⟨rfl, -⟩ | ⟨-, -, -, -, hk⟩ | ⟨-, -, hp, hm, r, rest, hh, hk⟩ | ⟨-, he⟩ | ⟨-, -, -, rfl⟩
    · exact .inl rfl
    · exact .inl hk.host
    · have htail : t.host = rest := hk.host.trans (by simp [hh])
      exact .inr ⟨hm, hp, r, hh.trans (by rw [htail]), hk.ports, hk.trace⟩
    · obtain ⟨-, hhost, -⟩ := he.keeps
      exact .inl hhost
    · exact .inl (by simp)

/-! ### HALTED -/

theorem serve_halted {isInit : Bool} {l : Latch} {ok : Bool} {go : State → State} (hm : s.mode = .halted) :
    serve isInit l ok go s = .next s := by
  simp [serve, hm]

theorem issue_halted {v : Variant} {ops : List BusOp} (hm : s.mode = .halted) : issue v ops s = .next s := by
  simp [issue, hm]

/-- No instruction does anything in HALTED: every one is served or issued (10_state R41). -/
theorem exec_halted (hm : s.mode = .halted) (i : Instr) : exec i s = .next s := by
  by_cases hi : (encode i).space = .request
  · obtain ⟨isInit, ok, go, e, -⟩ := exec_request_eq_serve hi s
    exact e.trans (serve_halted hm)
  · cases i
    case init | setFrameCallback | setFrameBuffer | clearFrame | displayFrame | drawText | rdWidth | rdHeight | rdPpb
      | rdLight | rdDark => exact absurd rfl hi
    all_goals exact issue_halted hm

/-- The step that writes HALT_CAUSE is the one that halts: Halt alone writes it. -/
theorem OneEvent.haltCause (h : OneEvent s t) (hne : t.haltCause ≠ s.haltCause) :
    t.mode = .halted ∧ ∃ code, t.haltCause = some code := by
  rcases h with ⟨u, hu, hk⟩ | ⟨code, u, hk, rfl⟩ | ⟨code, -, rfl⟩
  · obtain ⟨-, hcause, -⟩ := hu.keeps
    exact absurd (hk.haltCause.trans hcause) hne
  · rcases takeFault_cases code u with ⟨-, e⟩ | ⟨-, e⟩ <;> rw [e] at hne ⊢
    · exact absurd hk.haltCause hne
    · exact ⟨rfl, code, rfl⟩
  · exact ⟨rfl, code, rfl⟩

/-- Settles O8: nothing runs in HALTED, and of all a step can do only Halt writes HALT_CAUSE. -/
theorem haltedIsTerminal : Obligations.HaltedIsTerminal := by
  unfold Obligations.HaltedIsTerminal
  refine ⟨fun s hm => ⟨by rw [step, if_pos hm], exec_halted hm⟩, fun s t ht hne => ?_⟩
  rcases step_cases ht with ⟨rfl, -⟩ | ⟨-, -, -, -, hk⟩ | ⟨-, -, -, -, r, rest, -, hk⟩ | ⟨hm, he⟩ | ⟨-, -, -, rfl⟩
  · exact absurd rfl hne
  · exact absurd hk.haltCause hne
  · exact absurd hk.haltCause hne
  · exact ⟨hm, he.haltCause hne⟩
  · exact absurd (by simp) hne

/-! ### One event a step -/

/-- Settles O10: of all a step can do, a read, an acceptance and a wait add no event; at a move the invariant has a
command due or in progress. -/
theorem stepEmitsAtMostOneEvent : Obligations.StepEmitsAtMostOneEvent := by
  unfold Obligations.StepEmitsAtMostOneEvent
  intro s t ht
  rcases step_cases ht with ⟨rfl, hw⟩ | ⟨-, hb, hs, hp, hk⟩ | ⟨-, -, hp, hm, r, rest, hh, hk⟩ | ⟨-, he⟩ | ⟨-, -, -, rfl⟩
  · exact ⟨.inl rfl, fun _ _ => .inr (.inr ⟨rfl, hw.symm⟩)⟩
  · refine ⟨.inl hk.trace, fun hi _ => .inl ⟨hp.resolve_right fun hmv => ?_, hb, hs⟩⟩
    exact (hi.due hmv).elim (· hs) (· hb)
  · refine ⟨.inl hk.trace, fun _ _ => .inr (.inl ⟨hm, hp, r, ?_⟩)⟩
    rw [hk.host, accept_host, hh, List.tail_cons]
  · obtain ⟨-, -, e, he⟩ := he.keeps
    exact ⟨.inr ⟨e, he⟩, fun _ hn => absurd (he.symm.trans hn) (by simp)⟩
  · exact ⟨.inr ⟨_, sampleBusy_trace _⟩, fun _ hn => absurd hn (by simp)⟩

/-! ### Power-on -/

/-- The state after power-on meets the invariant of an admitted configuration (70 R401). -/
theorem powerOn_inv {c : Config} (hc : c.wf = true) : Inv (State.powerOn c) where
  config := hc
  fm := rfl
  vis := rfl
  cause := by simp [State.powerOn]
  framing _ _ := rfl
  bus := rfl
  mode := by cases hv : c.variant <;> simp [State.powerOn, hv, modeOfVariant]
  pos := rfl
  modePos := rfl
  initRest := rfl
  cursor := le_rfl
  registers := trivial
  sendFree _ := rfl
  send := nofun
  due := nofun
  ended := nofun

/-- GOLED_INIT_BLOCK of the standard configuration is admitted: the open commands stand in it only where they are
(log 4). -/
theorem standardInitBlock_ok : goledInitBlockOk standardDisplayOn standardInitBlock = true := by
  unfold standardInitBlock
  dsimp only
  split
  · next h => exact h
  · have hlen : (Config.openGoledOnArgs.take 3).length ≤ 3 := List.length_take_le _ _
    simp only [goledInitBlockOk, standardDisplayOn, blockBytes, List.all_cons, List.all_nil, List.isEmpty_cons,
      List.getLast?_cons_cons, List.getLast?_singleton, List.map_cons, List.map_nil, List.sum_cons, List.sum_nil,
      List.length_replicate, List.length_cons, Bool.and_eq_true, decide_eq_true_eq, beq_self_eq_true]
    refine ⟨⟨⟨by decide, trivial⟩, ?_⟩, ?_⟩ <;> omega

/-- The configuration of `State.reset` is admitted. -/
theorem standard_wf : Config.standard.wf = true := by
  have hseq : epdInitSeqOk Config.standard.epdInitSeq = true := by
    rw [epdInitSeqOk, Bool.and_eq_true]
    refine ⟨?_, rfl⟩
    simp [Config.standard, initActionOk, epdOpcodes]
  rw [Config.wf, hseq]
  exact standardInitBlock_ok

/-- Settles O16. -/
theorem powerOn : Obligations.PowerOn :=
  ⟨fun _ => ⟨rfl, rfl, rfl, rfl, rfl, powerOn_inv⟩, rfl, powerOn_inv standard_wf⟩

/-! ### The configuration registers -/

/-- No step changes the parameters (00_scope R7). -/
theorem step_cfg (ht : step s = .next t) : t.cfg = s.cfg := by
  rcases step_cases ht with ⟨rfl, -⟩ | ⟨-, -, -, -, hk⟩ | ⟨-, -, -, -, r, rest, -, hk⟩ | ⟨-, he⟩ | ⟨-, -, -, rfl⟩
  · rfl
  · exact hk.cfg
  · exact hk.cfg
  · exact he.keeps.1
  · simp

/-- A read accessor in IDLE comes to its response, which is its one event (40 R171). -/
theorem respond_answers (op : Byte) (v : Half) (hm : s.mode = .idle) :
    respond op v s = .next { s with latch := ⟨op, 0, 0, 0, 0, 0, 0, 0⟩, pos := .respond v } ∧
      (s.bus = [] → s.send = none →
        Sys2Proof.core.run 1 { s with latch := ⟨op, 0, 0, 0, 0, 0, 0, 0⟩, pos := .respond v } =
          .next { s with latch := ⟨op, 0, 0, 0, 0, 0, 0, 0⟩, pos := .idle, trace := s.trace ++ [.respond v] }) := by
  refine ⟨by simp [respond, serve, hm], fun hb hs => run_one ?_⟩
  rw [step_point (s := { s with latch := _, pos := .respond v }) (by simp [hm]) hb hs nofun]
  simp [seqStep, finishRequest, emit, hm]

/-- Settles O17: each register is the one the accessor's arm responds with. -/
theorem configurationRegisters : Obligations.ConfigurationRegisters := by
  unfold Obligations.ConfigurationRegisters
  refine ⟨fun s t => step_cfg, fun s hm => ⟨fun hv => ?_, fun hv => ?_, fun hv => ?_⟩⟩ <;>
    simp only [exec, execRdWidth, execRdHeight, execRdPpb, execRdLight, execRdDark, hv, width, height, pixelPerByte,
      lightColor, darkColor] <;>
    exact ⟨respond_answers _ _ hm, respond_answers _ _ hm, respond_answers _ _ hm, respond_answers _ _ hm,
      respond_answers _ _ hm⟩

/-! ### The busy input -/

/-- A sample uses one level of the busy input: the next listed one, or one beyond the list (log 8). -/
theorem sampleBusy_input (s : State) :
    (∃ l, s.busyIn = l :: (sampleBusy s).busyIn ∧ (sampleBusy s).busyReads = s.busyReads) ∨
    (s.busyIn = [] ∧ (sampleBusy s).busyIn = [] ∧ (sampleBusy s).busyReads = s.busyReads + 1) := by
  rcases busyNext_cases (emit (.busySample (busyAsserted s)) s) with ⟨l, rest, hin, e⟩ | ⟨hin, e⟩ <;> rw [sampleBusy, e]
  · exact .inl ⟨l, hin, rfl⟩
  · exact .inr ⟨hin, hin, rfl⟩

/-- What a step does to the busy input: nothing, or one sample at a sample position, which is its event. -/
def BusyUse (s t : State) : Prop :=
  (t.busyIn = s.busyIn ∧ t.busyReads = s.busyReads) ∨
  (∃ site, s.pos = .sample site) ∧ (∃ v, t.trace = s.trace ++ [.busySample v]) ∧
    ((∃ l, s.busyIn = l :: t.busyIn ∧ t.busyReads = s.busyReads) ∨
      (s.busyIn = [] ∧ t.busyIn = [] ∧ t.busyReads = s.busyReads + 1))

theorem EventOf.busyUse (h : EventOf s t) : BusyUse s t := by
  cases h with
  | sample site hp => exact .inr ⟨⟨site, hp⟩, ⟨_, sampleBusy_trace _⟩, sampleBusy_input { s with ops := s.ops + 1 }⟩
  | _ => exact .inl ⟨rfl, rfl⟩

theorem OneEvent.busyUse (h : OneEvent s t) : BusyUse s t := by
  rcases h with ⟨u, hu, hk⟩ | ⟨code, u, hk, rfl⟩ | ⟨code, -, rfl⟩
  · rw [BusyUse, hk.busyIn, hk.busyReads, hk.trace]
    exact hu.busyUse
  · exact .inl ⟨(takeFault_busyIn code u).trans hk.busyIn, (takeFault_busyReads code u).trans hk.busyReads⟩
  · exact .inl ⟨rfl, rfl⟩

theorem step_busyUse (ht : step s = .next t) : BusyUse s t := by
  rcases step_cases ht with ⟨rfl, -⟩ | ⟨-, -, -, -, hk⟩ | ⟨-, -, -, -, r, rest, -, hk⟩ | ⟨-, he⟩ | ⟨-, hp, -, rfl⟩
  · exact .inl ⟨rfl, rfl⟩
  · exact .inl ⟨hk.busyIn, hk.busyReads⟩
  · exact .inl ⟨hk.busyIn, hk.busyReads⟩
  · exact he.busyUse
  · exact .inr ⟨⟨_, hp⟩, ⟨_, sampleBusy_trace _⟩, sampleBusy_input { s with ops := s.ops + 1 }⟩

/-- Settles O49: a sample position is one of EPD's. -/
theorem busyIsSampledOnlyInAWait : Obligations.BusyIsSampledOnlyInAWait := by
  unfold Obligations.BusyIsSampledOnlyInAWait
  intro s t ht
  refine ⟨step_busyUse ht, fun hi hv => (step_busyUse ht).resolve_right fun ⟨⟨site, hp⟩, _⟩ => hv ?_⟩
  have hpos := hi.pos
  rw [hp] at hpos
  exact eq_of_beq hpos

/-! ### The pins -/

/-- What a step does to the pins: nothing, or what its event says; the reset output moves only in the reset pulse. -/
def PinsUse (s t : State) : Prop :=
  (t.pins.rst ≠ s.pins.rst → s.pos = .resetLow ∨ s.pos = .resetHigh) ∧
  (t.pins = s.pins ∨
  (∃ l, t.trace = s.trace ++ [.dc l] ∧ t.pins = { s.pins with dc := l }) ∨
  (∃ l, t.trace = s.trace ++ [.cs l] ∧ t.pins = { s.pins with cs := l }) ∨
  (∃ l, t.trace = s.trace ++ [.setRst l] ∧ t.pins = { s.pins with rst := l }))

/-- A step that keeps the pins. -/
theorem PinsUse.of_eq (h : t.pins = s.pins) : PinsUse s t := ⟨fun hn => absurd (by rw [h]) hn, .inl h⟩

theorem EventOf.pinsUse (h : EventOf s t) : PinsUse s t := by
  cases h with
  | rst l hp => exact ⟨fun _ => hp, .inr (.inr (.inr ⟨l, rfl, rfl⟩))⟩
  | dc l => exact ⟨fun hn => absurd rfl hn, .inr (.inl ⟨l, rfl, rfl⟩)⟩
  | cs l rest hb => exact ⟨fun hn => absurd rfl hn, .inr (.inr (.inl ⟨l, rfl, rfl⟩))⟩
  | sample site hp => exact .of_eq (sampleBusy_pins _)
  | _ => exact .of_eq rfl

theorem OneEvent.pinsUse (h : OneEvent s t) : PinsUse s t := by
  rcases h with ⟨u, hu, hk⟩ | ⟨code, u, hk, rfl⟩ | ⟨code, -, rfl⟩
  · rw [PinsUse, hk.pins, hk.trace]
    exact hu.pinsUse
  · exact .of_eq ((takeFault_pins code u).trans hk.pins)
  · exact .of_eq rfl

/-- Settles O60: the framing of the invariant, and the event that enters the trace. -/
theorem pinsFollowTheTrace : Obligations.PinsFollowTheTrace := by
  unfold Obligations.PinsFollowTheTrace
  refine ⟨fun s hi hm hh hb => hi.cs_deassert hm ?_ hb, fun s t ht => ?_⟩
  · cases hp : s.pos with
    | halting code => exact absurd hp (hh code)
    | _ => rfl
  · rcases step_cases ht with ⟨rfl, -⟩ | ⟨-, -, -, -, hk⟩ | ⟨-, -, -, -, r, rest, -, hk⟩ | ⟨-, he⟩ | ⟨-, -, -, rfl⟩
    · exact PinsUse.of_eq rfl
    · exact PinsUse.of_eq hk.pins
    · exact PinsUse.of_eq (s := s) hk.pins
    · exact he.pinsUse
    · exact PinsUse.of_eq (by simp)

/-! ### MODE -/

section ModeMove

variable {v : Variant} {m m' : Mode}

theorem modeMove_self (v : Variant) (m : Mode) : modeMove v m m = true := by simp [modeMove]

theorem modeMove_halted (v : Variant) (m : Mode) : modeMove v m .halted = true := by simp [modeMove]

/-- There is no way back to UNINIT (10_state R37 to R39). -/
theorem eq_uninit_of_modeMove (h : modeMove v m .uninit = true) : m = .uninit := by
  cases v <;> cases m <;> first | rfl | cases h

/-- Within an algorithm MODE stays, or the algorithm ends. -/
def StaysOrEnds (m m' : Mode) : Prop := m' = m ∨ m' = .idle

/-- Initialisations and writes end in IDLE (10_state R37, R38). -/
theorem StaysOrEnds.modeMove (h : StaysOrEnds m m') (hm : m = .initializing ∨ m = .writing ∨ m = .idle) :
    modeMove v m m' = true := by
  rcases h with rfl | rfl
  · exact modeMove_self v m'
  · rcases hm with rfl | rfl | rfl <;> cases v <;> rfl

end ModeMove

theorem nextChar_mode (s : State) : StaysOrEnds s.mode (nextChar s).mode := by
  unfold nextChar
  dsimp only
  split
  · exact .inl rfl
  · exact .inr rfl

theorem writeDone_mode (s : State) : StaysOrEnds s.mode (writeDone s).mode := by
  unfold writeDone
  split
  · exact nextChar_mode s
  all_goals exact .inr rfl

theorem epdRowOrEnd_mode (j : Int) (s : State) : StaysOrEnds s.mode (epdRowOrEnd j s).mode := by
  unfold epdRowOrEnd
  split
  · exact .inl rfl
  · exact writeDone_mode s

theorem epdGroupOrRow_mode (g : Int) (s : State) : StaysOrEnds s.mode (epdGroupOrRow g s).mode := by
  unfold epdGroupOrRow
  split
  · exact .inl rfl
  · exact epdRowOrEnd_mode _ s

theorem goledRowOrEnd_mode (r : Int) (s : State) : StaysOrEnds s.mode (goledRowOrEnd r s).mode := by
  unfold goledRowOrEnd
  split
  · exact .inl rfl
  · exact writeDone_mode s

theorem goledNext_mode (s : State) : StaysOrEnds s.mode (goledNext s).mode := by
  unfold goledNext
  split
  · exact .inl rfl
  · exact goledRowOrEnd_mode _ s

theorem woledPageOrEnd_mode (p : Int) (s : State) : StaysOrEnds s.mode (woledPageOrEnd p s).mode := by
  unfold woledPageOrEnd
  split
  · exact .inl rfl
  · exact writeDone_mode s

theorem woledNext_mode (s : State) : StaysOrEnds s.mode (woledNext s).mode := by
  unfold woledNext
  split
  · exact .inl rfl
  · exact woledPageOrEnd_mode _ s

/-- An EPD initialisation ends only where no action is left. -/
theorem epdInitNext_mode (rest : List InitAction) (s : State) :
    (epdInitNext rest s).mode = if rest = [] then .idle else s.mode := by
  unfold epdInitNext
  split <;> rfl

theorem goledInitNext_mode (rest : List (List Byte)) (s : State) : (goledInitNext rest s).mode = s.mode := by
  unfold goledInitNext
  split <;> rfl

theorem woledInitNext_mode (rest : List (List Byte)) (s : State) : StaysOrEnds s.mode (woledInitNext rest s).mode := by
  unfold woledInitNext
  split
  · exact .inr rfl
  · exact .inl rfl

/-- A move inside an algorithm keeps MODE or ends, but for the one to the pointer wait of a row (41_epaper R211). -/
theorem resume_mode (s : State) :
    StaysOrEnds s.mode (resume s).mode ∨ (s.pos = .epdPointerSet ∧ (resume s).mode = .waitPointer) := by
  unfold resume
  cases e : s.pos <;> dsimp only
  case epdPointerSet => exact .inr ⟨rfl, rfl⟩
  case epdInit rest =>
    rw [epdInitNext_mode]
    split
    · exact .inl (.inr rfl)
    · exact .inl (.inl rfl)
  case epdRows => exact .inl (epdRowOrEnd_mode _ s)
  case epdGroups => exact .inl (epdGroupOrRow_mode _ s)
  case epdNextGroup => exact .inl (epdGroupOrRow_mode _ s)
  case goledBlock rest => exact .inl (.inl (goledInitNext_mode rest s))
  case goledRows => exact .inl (goledRowOrEnd_mode _ s)
  case goledNextPair => exact .inl (goledNext_mode s)
  case woledInit rest => exact .inl (woledInitNext_mode rest s)
  case woledPages => exact .inl (woledPageOrEnd_mode _ s)
  case woledNextColumn => exact .inl (woledNext_mode s)
  all_goals exact .inl (.inl rfl)

/-- A move is made in INITIALIZING or in WRITING (10_state R37, R38). -/
theorem modeAt_of_isMove {p : Pos} {m : Mode} (h : modeAt p m = true) (hp : isMove p = true) :
    m = .initializing ∨ m = .writing := by
  cases p
  case epdInit | goledBlock | woledInit => exact .inl (eq_of_beq h)
  case epdYWindow | epdRows | epdYPointer | epdPointerSet | epdGroups | epdNextGroup | goledRowWindow | goledRows
    | goledNextPair | woledPageWindow | woledPages | woledNextColumn => exact .inr (eq_of_beq h)
  all_goals cases hp

/-- Moving on from a position of the variant moves MODE as 10_state R37 and R38 allow. -/
theorem resume_modeMove (hp : posOk s.cfg s.mode s.pos = true) :
    modeMove s.cfg.variant s.mode (resume s).mode = true := by
  cases hmv : isMove s.pos with
  | false =>
    rw [resume_of_isMove_eq_false hmv]
    exact modeMove_self _ _
  | true =>
    obtain ⟨hv, hm, -, -⟩ := posOk_iff.mp hp
    rcases resume_mode s with h | ⟨e, h⟩
    · exact h.modeMove ((modeAt_of_isMove hm hmv).imp_right .inl)
    · rw [e] at hv hm
      rw [eq_of_beq hv, eq_of_beq hm, h]
      rfl

/-- A write that begins is in WRITING; one that is guarded ends; one that is degenerate stays. -/
theorem startWrite_mode (s : State) : StaysOrEnds s.mode (startWrite s).mode ∨ (startWrite s).mode = .writing := by
  unfold startWrite
  dsimp only
  split
  · split
    · exact .inl (.inl rfl)
    · exact .inr rfl
  · split
    · exact .inl (writeDone_mode s)
    · split
      · exact .inl (.inl rfl)
      · exact .inr rfl
  · split
    · exact .inl (.inl rfl)
    · exact .inr rfl

/-- A write begins from IDLE, and the sub-write of a character in WRITING. -/
theorem startWrite_modeMove {m : Mode} (hs : s.mode = m) (hm : m = .idle ∨ m = .writing) (v : Variant) :
    modeMove v m (startWrite s).mode = true := by
  subst hs
  rcases startWrite_mode s with h | h
  · exact h.modeMove (.inr hm.symm)
  · rw [h]
    rcases hm with hm | hm <;> rw [hm] <;> cases v <;> rfl

theorem takeFault_modeMove (v : Variant) (code : FaultCode) (s : State) :
    modeMove v s.mode (takeFault code s).mode = true := by
  rcases takeFault_cases code s with ⟨-, e⟩ | ⟨-, e⟩ <;> rw [e]
  · exact modeMove_self v s.mode
  · exact modeMove_halted v s.mode

theorem pinOp_modeMove {v : Variant} {k : State → State}
    (hk : modeMove v s.mode (k { s with ops := s.ops + 1 }).mode = true) :
    modeMove v s.mode (pinOp s k).mode = true := by
  rcases pinOp_cases s k with ⟨u, -, e⟩ | ⟨-, e⟩ <;> rw [e]
  · exact takeFault_modeMove v _ s
  · exact hk

/-- A query keeps MODE where what is done with its Color does, or takes a fault. -/
theorem query_modeMove {v : Variant} {px py : Int} {k : Color → State → State} (hk : ∀ c u, (k c u).mode = u.mode) :
    modeMove v s.mode (query px py s k).mode = true := by
  rcases query_cases px py s k with ⟨c, -, e⟩ | ⟨-, e⟩ <;> rw [e]
  · rw [hk, pixRead_mode]
    exact modeMove_self v s.mode
  · exact takeFault_modeMove v _ s

/-- The end of a busy wait goes back to the algorithm it is in (10_state R38). -/
theorem waitDone_modeMove {site : WaitSite} (hp : posOk s.cfg s.mode (.sample site) = true) :
    modeMove s.cfg.variant s.mode (waitDone site s).mode = true := by
  obtain ⟨hv, hm, hi, -⟩ := posOk_iff.mp hp
  replace hv : s.cfg.variant = .epd := eq_of_beq hv
  replace hm : s.mode = modeAtWait site := eq_of_beq hm
  cases site with
  | init rest => exact resume_modeMove (s := { s with pos := .epdInit rest }) (posOk_intro hv hm rfl hi)
  | pointer =>
    rw [hv, hm]
    rfl
  | commit =>
    rw [hv, hm]
    rfl

/-- An admitted EPD_INIT_SEQ has its five named commands at least (41_epaper R205). -/
theorem epdInitSeq_ne_nil {c : Config} (hc : c.wf = true) : c.epdInitSeq ≠ [] := by
  intro hn
  simp [Config.wf, epdInitSeqOk, hn, initOpcodes] at hc

/-- The event or read at a point of the invariant moves MODE as 10_state R37 to R39 allow. -/
theorem Inv.seqStep_modeMove (h : Inv s) (hnm : isMove s.pos = false) :
    modeMove s.cfg.variant s.mode (seqStep s).mode = true := by
  have hv := h.pos
  have hm := h.modePos
  have hok := h.posOk
  have hself := modeMove_self s.cfg.variant s.mode
  unfold seqStep
  cases e : s.pos <;> rw [e] at hnm hv hm hok <;> dsimp only
  case idle => exact hself
  case raising code => exact takeFault_modeMove _ code s
  case halting code => exact modeMove_halted _ _
  case respond v =>
    rw [eq_of_beq hm]
    exact modeMove_self _ .idle
  case resetLow => exact pinOp_modeMove hself
  case resetHold => exact hself
  case resetHigh => exact pinOp_modeMove hself
  case resetSettle =>
    rw [epdInitNext_mode, if_neg (epdInitSeq_ne_nil h.config), eq_of_beq hv, eq_of_beq hm]
    rfl
  case pause ms rest =>
    rw [epdInitNext_mode, eq_of_beq hv, eq_of_beq hm]
    split
    · rfl
    · rw [emit_mode, eq_of_beq hm]
      rfl
  case sample site =>
    refine pinOp_modeMove ?_
    split
    · simpa using hself
    · simpa using waitDone_modeMove (s := sampleBusy { s with ops := s.ops + 1 }) (by simpa using hok rfl)
  case poll site => exact hself
  case epdPixel => exact query_modeMove fun c u => by dsimp only; split <;> rfl
  case goledPre => rwa [goledInitNext_mode]
  case goledPost =>
    rw [eq_of_beq hv, eq_of_beq hm]
    rfl
  case goledLeft => exact query_modeMove fun c u => rfl
  case goledRight => exact query_modeMove fun c u => rfl
  case woledDelay1 => exact hself
  case woledDelay2 => exact (woledInitNext_mode _ (emit _ s)).modeMove (.inl (eq_of_beq hm))
  case woledPixel => exact query_modeMove fun c u => by dsimp only; split <;> rfl
  case readChar => simpa [readChar] using hself
  case readGlyph =>
    unfold readGlyph
    dsimp only
    split
    · simpa using hself
    · split
      · simpa using hself
      · exact startWrite_modeMove (by exact glyphRead_mode s) (.inr (eq_of_beq hm)) _
  all_goals cases hnm

/-- An operation of the transaction group in progress, and the move after it. -/
theorem Inv.driveBus_modeMove (h : Inv s) (hb : s.bus ≠ []) (ht : driveBus s = .next t) :
    modeMove s.cfg.variant s.mode t.mode = true := by
  have hok := h.posOk (h.running hb)
  obtain ⟨op, rest, e⟩ := List.exists_cons_of_ne_nil hb
  rcases driveBus_cases e ht with ⟨code, rfl⟩ | ⟨-, rfl⟩
  · exact takeFault_modeMove _ code { s with bus := rest }
  · rcases settle_cases (applyOp op { s with bus := rest, ops := s.ops + 1 }) with ⟨-, -, e⟩ | ⟨-, e⟩ <;> rw [e]
    · simpa using resume_modeMove (s := applyOp op { s with bus := rest, ops := s.ops + 1 }) (by simpa using hok)
    · simpa using modeMove_self _ s.mode

/-- A request as it is accepted keeps MODE where a check refuses it. -/
theorem serve_modeMove {v : Variant} {isInit : Bool} {l : Latch} {ok : Bool} {go : State → State}
    (ht : serve isInit l ok go s = .next t)
    (hgo : (s.mode = .uninit ∧ isInit = true) ∨ (s.mode = .idle ∧ isInit = false) →
      modeMove v s.mode (go { s with latch := l }).mode = true) : modeMove v s.mode t.mode = true := by
  have hself := modeMove_self v s.mode
  rcases serve_cases isInit l ok go s with ⟨hc, e⟩ | ⟨-, e⟩ | ⟨-, -, -, e⟩ | ⟨-, -, e⟩ <;>
    obtain rfl := Host.Outcome.next.inj (e.symm.trans ht)
  · exact hgo (hc.imp_right fun ⟨hidle, hno, _⟩ => ⟨hidle, hno⟩)
  all_goals exact hself

theorem serve_startWrite_modeMove {v : Variant} {l : Latch} {ok : Bool} {src : PixSource}
    (ht : serve false l ok (fun s => startWrite { s with src := src }) s = .next t) :
    modeMove v s.mode t.mode = true :=
  serve_modeMove ht fun hc =>
    startWrite_modeMove (s := { s with latch := l, src := src }) rfl (.inl (hc.resolve_left nofun).1) v

theorem respond_modeMove {v : Variant} {op : Byte} {x : Half} (ht : respond op x s = .next t) :
    modeMove v s.mode t.mode = true :=
  serve_modeMove ht fun _ => modeMove_self v s.mode

/-- A request accepted moves MODE as 10_state R37 and R38 allow. -/
theorem exec_request_modeMove {i : Instr} (hi : (encode i).space = .request) (ht : exec i s = .next t) :
    modeMove s.cfg.variant s.mode t.mode = true := by
  cases i
  case init =>
    rw [exec, execInit] at ht
    refine serve_modeMove ht fun hc => ?_
    rw [(hc.resolve_right nofun).1]
    dsimp only
    split <;> next hv => rw [hv]; rfl
  case setFrameCallback => exact serve_startWrite_modeMove (src := .callback) ht
  case setFrameBuffer => exact serve_startWrite_modeMove (src := .buffer) ht
  case clearFrame => exact serve_startWrite_modeMove (src := .constant) ht
  case displayFrame =>
    rw [exec, execDisplayFrame] at ht
    refine serve_modeMove ht fun hc => ?_
    rw [(hc.resolve_left nofun).1]
    dsimp only
    split <;> next hv => rw [hv]; rfl
  case drawText =>
    rw [exec, execDrawText] at ht
    refine serve_modeMove ht fun hc => ?_
    rw [(hc.resolve_left nofun).1]
    dsimp only
    split
    · exact modeMove_self _ .idle
    · cases s.cfg.variant <;> rfl
  case rdWidth => exact respond_modeMove ht
  case rdHeight => exact respond_modeMove ht
  case rdPpb => exact respond_modeMove ht
  case rdLight => exact respond_modeMove ht
  case rdDark => exact respond_modeMove ht
  all_goals cases hi

/-- Accepting a request moves MODE as its meaning does, and not at all where its descriptor does not decode. -/
theorem step_accept_modeMove {r : HostRequest} {rest : List HostRequest} (hm : s.mode = .uninit ∨ s.mode = .idle)
    (hp : s.pos = .idle) (hb : s.bus = []) (hs : s.send = none) (hh : s.host = r :: rest) (ht : step s = .next t) :
    modeMove s.cfg.variant s.mode t.mode = true := by
  rw [step_accept hm hp hb hs hh] at ht
  split at ht
  · next i hd => exact exec_request_modeMove (s := accept r s) (decode_space hd) ht
  · obtain rfl := Host.Outcome.next.inj ht
    exact modeMove_self _ s.mode

/-- A step of the invariant moves MODE as 10_state R37 to R39 allow, by the branches of a step. -/
theorem Inv.step_modeMove (h : Inv s) (ht : step s = .next t) : modeMove s.cfg.variant s.mode t.mode = true := by
  have hself := modeMove_self s.cfg.variant s.mode
  by_cases hm : s.mode = .halted
  · rw [step, if_pos hm] at ht
    exact Host.Outcome.next.inj ht ▸ hself
  rcases step_branches s hm with ⟨hb, e⟩ | ⟨hb, w, hs⟩ | ⟨hb, hs, -, e⟩ | ⟨hb, hs, hp, ha, r, rest, hh⟩ | ⟨-, e⟩
  · exact h.driveBus_modeMove hb (e.symm.trans ht)
  · obtain ⟨i, hd⟩ := h.send_decodes hs
    obtain ⟨op, rest, he, hbus⟩ := h.exec_due_drives hm hs hd
    exact hbus.driveBus_modeMove nofun (he.symm.trans ((step_send hm hb hs hd).symm.trans ht))
  · exact Host.Outcome.next.inj (e.symm.trans ht) ▸ h.seqStep_modeMove (h.isMove_eq_false hb hs)
  · exact step_accept_modeMove ha hp hb hs hh ht
  · exact Host.Outcome.next.inj (e.symm.trans ht) ▸ hself

/-- Settles O58. -/
theorem modeMoves : Obligations.ModeMoves := by
  unfold Obligations.ModeMoves
  intro s t h ht
  have hmove := h.step_modeMove ht
  exact ⟨hmove, fun hu => eq_uninit_of_modeMove (hu ▸ hmove)⟩

end Sys2Proof.Machine
end

section
/-! SUPPORT and PROOFS. The statements of 20_memory about a step and a pixel byte: no state of the invariant stops (O57), every
query and pixel byte is on the panel (O59), frame memory changes only at a pixel byte's transfer (O51), and what one pixel
byte does from its first event to its last (O25, O27, O28). -/

namespace Sys2Proof.Machine

variable {s t : State}

/-! ### No state of the invariant stops -/

/-- An operation on the bus that is for a unit of the panel goes on, whatever the oracle answers. -/
theorem driveBus_next (hb : busOnPanel s.cfg.variant s.bus = true) : ∃ t, driveBus s = .next t := by
  unfold driveBus
  cases e : s.bus with
  | nil => exact ⟨_, rfl⟩
  | cons op rest =>
    cases op with
    | dc l => exact ⟨_, rfl⟩
    | cs l => exact ⟨_, rfl⟩
    | xfer b d =>
      rcases busOp_cases { s with bus := rest } (fun s => settleAfter (transfer b d s)) with ⟨u, -, ho⟩ | ⟨-, ho⟩
      · exact ⟨_, ho⟩
      · refine Exists.imp (fun _ ht => ho.trans ht) ?_
        dsimp only
        rcases transfer_cases b d { s with bus := rest, ops := s.ops + 1 } with
          ⟨-, ht⟩ | ⟨_, _, -, -, ht⟩ | ⟨d', rfl, hoff, -⟩
        · exact ⟨_, congrArg settleAfter ht⟩
        · exact ⟨_, congrArg settleAfter ht⟩
        · rw [e] at hb
          simp [busOnPanel, hoff] at hb

/-- Settles O57, by the branches of a step: the bus holds only operations for the panel, and the command due goes on it as
such. -/
theorem invariantStatesNeverStop : Obligations.InvariantStatesNeverStop := by
  unfold Obligations.InvariantStatesNeverStop Proceeds
  intro s h
  by_cases hm : s.mode = .halted
  · exact ⟨s, if_pos hm⟩
  rcases step_branches s hm with ⟨-, e⟩ | ⟨hb, w, hs⟩ | ⟨-, -, -, e⟩ | ⟨hb, hs, hp, ha, r, rest, hh⟩ | ⟨-, e⟩
  · rw [e]
    exact driveBus_next h.bus
  · obtain ⟨i, hd⟩ := h.send_decodes hs
    obtain ⟨op, rest, he, hbus⟩ := h.exec_due_drives hm hs hd
    rw [step_send hm hb hs hd, he]
    exact driveBus_next hbus.bus
  · exact ⟨_, e⟩
  · obtain ⟨t, ht, -⟩ := step_accept_latched ha hp hb hs hh
    exact ⟨t, ht⟩
  · exact ⟨s, e⟩

/-! ### Every query and every pixel byte is on the panel -/

/-- A pixel byte on a bus whose operations are for the panel is for one of its units (20_memory R90). -/
theorem fmAddr_of_busOnPanel {v : Variant} {ops : List BusOp} {b : Byte} {d : Int × Int}
    (h : busOnPanel v ops = true) (hmem : BusOp.xfer b (some d) ∈ ops) : ∃ a, fmAddr v d = some a ∧ a < fmUnits v := by
  obtain ⟨a, ha⟩ := Option.isSome_iff_exists.mp (List.all_eq_true.mp h _ hmem)
  exact ⟨a, ha, fmAddr_lt ha⟩

/-- Settles O59: the working registers of the invariant at each read, and the units of its bus. -/
theorem boundsProperty : Obligations.BoundsProperty := by
  unfold Obligations.BoundsProperty
  intro s h
  have hr := h.registers
  refine ⟨fun hp => ?_, fun hp => ?_, fun hp => ?_, fun b d => fmAddr_of_busOnPanel h.bus⟩
  · rw [hp] at hr
    obtain ⟨⟨hxa, hxa8, hxe8, hxe, hye⟩, hj, hje, hg, hgn, hk⟩ := hr
    unfold epdGroupCount at hgn
    omega
  · have hw : registersAt s .goledLeft := by rcases hp with hp | hp <;> (rw [hp] at hr; exact hr)
    obtain ⟨⟨hxc, hce, hre⟩, hr0, hrr, hc, hcc⟩ := hw
    omega
  · rw [hp] at hr
    obtain ⟨⟨hpg, hxe, hpe⟩, hp0, hpp, hc, hcc, hoff⟩ := hr
    omega

/-! ### Frame memory changes only at a pixel byte's transfer -/

/-- What a step does to frame memory: nothing, or the transfer of a pixel byte stores it at its intended address. -/
def FmUse (s t : State) : Prop :=
  (∀ a, Memory.read t.fm a = Memory.read s.fm a) ∨
  ∃ b d a rest, s.bus = .xfer b (some d) :: rest ∧ fmAddr s.cfg.variant d = some a ∧
    t.trace = s.trace ++ [.xfer b] ∧ Memory.read t.fm a = some b ∧
    ∀ a', a' ≠ a → Memory.read t.fm a' = Memory.read s.fm a'

theorem FmUse.of_eq (h : t.fm = s.fm) : FmUse s t := .inl fun a => by rw [h]

theorem EventOf.fmUse (h : EventOf s t) : FmUse s t := by
  cases h with
  | pixel b d a rest hb ha =>
    exact .inr ⟨b, d, a, rest, hb, ha, rfl, memory_read_write_same _ _ _, fun _ hne => memory_read_write_other _ _ hne⟩
  | sample site hp => exact .of_eq (sampleBusy_fm _)
  | _ => exact .of_eq rfl

theorem OneEvent.fmUse (h : OneEvent s t) : FmUse s t := by
  rcases h with ⟨u, hu, hk⟩ | ⟨code, u, hk, rfl⟩ | ⟨code, -, rfl⟩
  · rw [FmUse, hk.fm, hk.trace]
    exact hu.fmUse
  · exact .of_eq ((takeFault_fm code u).trans hk.fm)
  · exact .of_eq rfl

theorem step_fmUse (ht : step s = .next t) : FmUse s t := by
  rcases step_cases ht with ⟨rfl, -⟩ | ⟨-, -, -, -, hk⟩ | ⟨-, -, -, -, r, rest, -, hk⟩ | ⟨-, he⟩ | ⟨-, -, -, rfl⟩
  · exact .of_eq rfl
  · exact .of_eq hk.fm
  · exact .of_eq hk.fm
  · exact he.fmUse
  · exact .of_eq (by simp)

/-- Storing a byte where it already stands changes nothing. -/
theorem memory_write_write (m : List Host.Cell) (a : Nat) (b : Byte) :
    Memory.write (Memory.write m a b) a b = Memory.write m a b := by
  induction m with
  | nil => simp [Memory.write]
  | cons c m ih =>
    obtain ⟨k, v⟩ := c
    by_cases hlt : a < k
    · simp [Memory.write, hlt]
    · by_cases heq : a = k <;> simp [Memory.write, hlt, heq, ih]

/-- Settles O51: of all a step can do, only a pixel byte's transfer stores. -/
theorem frameMemoryChangesOnlyAtPixelTransfers : Obligations.FrameMemoryChangesOnlyAtPixelTransfers :=
  ⟨fun _ _ => step_fmUse, memory_write_write⟩

/-! ### One pixel byte from its first event to its last -/

theorem quiet_mono {m n : Nat} (hmn : m ≤ n) (hq : quiet n s) : quiet m s :=
  fun f hf => (hq f hf).imp id (by omega)

theorem quiet_of_oracle (h : s.oracle = none) (n : Nat) : quiet n s := fun f hf => by simp [h] at hf

theorem oracleFails_of_quiet (hq : quiet 1 s) : oracleFails s = none := by
  unfold oracleFails
  cases h : s.oracle with
  | none => rfl
  | some f =>
    have := hq f h
    exact if_neg (by omega)

/-- A pixel byte is issued on the wire of its variant, for the address the model intends (41_epaper R216, 42_gray_oled R266,
43_wide_oled R305). -/
theorem exec_pixelData_eq_issue {i : Instr} {b : Byte} (hi : i ∈ [.epdPixelData b, .goledPixelData b, .woledPixelData b])
    (hv : wireVariant i = some s.cfg.variant) :
    ∃ d, exec i s = issue s.cfg.variant (sendPixelOps b d) s ∧ pixelAddr s = fmAddr s.cfg.variant d := by
  simp only [List.mem_cons, List.not_mem_nil, or_false] at hi
  unfold pixelAddr
  rcases hi with rfl | rfl | rfl <;> obtain hv := Option.some.inj hv <;> rw [← hv] <;> exact ⟨_, rfl, rfl⟩

/-- The state after the first event of a pixel byte's transaction: DC at data level, and the rest on the bus. -/
def pixelStarted (b : Byte) (d : Int × Int) (s : State) : State :=
  { s with
    send := none
    bus := [.cs .assert, .xfer b (some d), .cs .deassert]
    pins := { s.pins with dc := .data }
    trace := s.trace ++ [.dc .data]
    ops := s.ops + 1 }

/-- A pixel byte that is issued starts its transaction. -/
theorem issue_pixel_starts {b : Byte} {d : Int × Int} (hm : s.mode ≠ .halted) (hb : s.bus = []) (hq : quiet 1 s) :
    issue s.cfg.variant (sendPixelOps b d) s = .next (pixelStarted b d s) := by
  rcases issue_cases s.cfg.variant (sendPixelOps b d) s with ⟨h, -⟩ | ⟨-, h, -⟩ | ⟨-, -, e⟩
  · exact absurd h hm
  · exact absurd rfl h
  · rw [e, hb]
    refine (driveBus_ok (s := { s with send := none, bus := sendPixelOps b d }) rfl hq rfl).trans ?_
    rw [settle_busy rfl]
    rfl

/-- The state at the end of a pixel byte's transaction, the byte stored at its unit (20_memory R96). -/
def afterPixel (b : Byte) (a : Nat) (s : State) : State := { afterWord ⟨[], [b]⟩ s with fm := Memory.write s.fm a b }

/-- The events of a word that is one data-level byte. -/
theorem wordEvents_pixel (fr : Framing) (b : Byte) :
    wordEvents fr ⟨[], [b]⟩ = [.dc .data, .cs .assert, .xfer b, .cs .deassert] := by
  cases fr <;> rfl

/-- The three events left of a pixel byte for a unit of the panel, after which the sequencer moves on. -/
theorem run_pixelStarted {b : Byte} {d : Int × Int} {a : Nat} (hm : s.mode ≠ .halted) (hq : quiet 4 s)
    (ha : fmAddr s.cfg.variant d = some a) :
    Sys2Proof.core.run 3 (pixelStarted b d s) = .next (resume (afterPixel b a s)) := by
  have hq' : quiet 3 (pixelStarted b d s) := fun f hf => by
    have := hq f hf
    simp only [pixelStarted]
    omega
  refine (run_group (s := pixelStarted b d s) _ _ hm rfl rfl hq' ?_).trans ?_
  · simp [pixelStarted, busOnPanel, ha]
  · simp [applyOps, applyOp, pixelStarted, ha, driveCs, emit, afterPixel, afterWord, wordEvents_pixel]

/-- The transfer of a pixel byte for no unit of the panel stops (log 17). -/
theorem driveBus_offPanel {b : Byte} {d : Int × Int} {rest : List BusOp} (hb : s.bus = .xfer b (some d) :: rest)
    (hq : quiet 1 s) (ha : fmAddr s.cfg.variant d = none) : driveBus s = .fault .noSuchFrameUnit := by
  have ho : oracleFails { s with bus := rest } = none := oracleFails_of_quiet hq
  rw [driveBus, hb]
  simp only [busOp_ok ho, transfer, ha, settleAfter]

theorem run_fault {f : Fault} (h : step s = .fault f) (k : Nat) : Sys2Proof.core.run (k + 1) s = .fault f := by
  have h' : Sys2Proof.core.step s = .fault f := h
  simp only [Host.Core.run, h']

/-- So a started pixel byte stops at its transfer, after chip-select. -/
theorem run_pixelStarted_offPanel {b : Byte} {d : Int × Int} (hm : s.mode ≠ .halted) (hq : quiet 4 s)
    (ha : fmAddr s.cfg.variant d = none) :
    Sys2Proof.core.run 2 (pixelStarted b d s) = .fault .noSuchFrameUnit := by
  have hsel : step (pixelStarted b d s) = .next (driveCs .assert
      { pixelStarted b d s with bus := [.xfer b (some d), .cs .deassert], ops := s.ops + 2 }) := by
    refine (step_bus (s := pixelStarted b d s) hm nofun).trans ((driveBus_ok rfl (fun f hf => ?_) rfl).trans ?_)
    · have := hq f hf
      simp only [pixelStarted]
      omega
    · rw [settle_busy rfl]
      rfl
  rw [run_succ 1 hsel]
  refine run_fault (Eq.trans (step_bus (by exact hm) (by nofun))
    (driveBus_offPanel (rest := [.cs .deassert]) rfl (fun f hf => ?_) (by exact ha))) 0
  have := hq f hf
  simp only [driveCs_ops]
  omega

/-- Settles O25: each arm issues the transaction of its own destination. -/
theorem pixelBytesStart : Obligations.PixelBytesStart := by
  unfold Obligations.PixelBytesStart
  intro s b hm hb hq
  refine ⟨fun hv => ?_, fun hv => ?_, fun hv => ?_⟩ <;>
    exact (congrArg (issue · _ s) hv.symm).trans (issue_pixel_starts hm hb hq)

/-- Settles O27: the transaction runs to its end, and its one store is at the intended address. -/
theorem pixelByteReachesItsAddress : Obligations.PixelByteReachesItsAddress := by
  unfold Obligations.PixelByteReachesItsAddress
  intro s i b a hi hv hm hb hq ha
  obtain ⟨d, he, hd⟩ := exec_pixelData_eq_issue hi hv
  exact ⟨pixelStarted b d s, Memory.write s.fm a b, he.trans (issue_pixel_starts hm hb (quiet_mono (by decide) hq)),
    fun _ => rfl, run_pixelStarted hm hq (hd.symm.trans ha), memory_read_write_same _ _ _,
    fun a' hne => memory_read_write_other _ _ hne⟩

/-- A wire command on an instance of another variant is refused: no instruction of the wire is issued but on its own
variant (30_encoding R123). -/
theorem exec_other_variant {i : Instr} {v : Variant} (hi : wireVariant i = some v) (hv : s.cfg.variant ≠ v)
    (hm : s.mode ≠ .halted) : exec i s = .refused .notInVariant := by
  have hissue (ops : List BusOp) : issue v ops s = .refused .notInVariant := by simp [issue, hm, hv]
  cases hp : isPixelData i with
  | false => exact (exec_eq_issue_wordOps hi hp s).trans (hissue _)
  | true =>
    cases i <;> simp only [isPixelData, Bool.false_eq_true] at hp <;> obtain rfl := Option.some.inj hi <;>
      exact hissue _

/-- Settles O28. -/
theorem modelStops : Obligations.ModelStops := by
  unfold Obligations.ModelStops
  refine ⟨fun s i b hi hv hm hb hq ha => ?_, fun s i v hi hv hm => exec_other_variant hi hv hm⟩
  obtain ⟨d, he, hd⟩ := exec_pixelData_eq_issue hi hv
  exact ⟨pixelStarted b d s, he.trans (issue_pixel_starts hm hb (quiet_mono (by decide) hq)),
    run_pixelStarted_offPanel hm hq (hd.symm.trans ha)⟩

end Sys2Proof.Machine
end

section
/-! SUPPORT and PROOFS. The statements of 20_memory about how a write begins and what it reads: degenerate windows (O15), the
GOLED frame write (O37), the buffer adapter (O46), and the cells of DRAW_TEXT (O53, O55). -/

namespace Sys2Proof.Machine

variable {s : State}

/-! ### Degenerate windows -/

/-- Check (4) of 30_encoding R119 fails for a degenerate window under FAULT. -/
theorem refusesDegenerate_eq_true {c : Config} {degenerate : Bool} (hc : c.degenerateExtent = .fault)
    (hd : degenerate = true) : refusesDegenerate c degenerate = true := by
  simp [refusesDegenerate, hc, hd]

/-- The window `⟨x, y, w, h⟩` is degenerate on a variant, the GOLED guard having passed it (20_memory R83). -/
def degenerateOn (v : Variant) (x y w h : Nat) : Prop :=
  match v with
  | .epd => w < 8 ∨ h = 0 ∨ 200 ≤ x ∨ 200 ≤ y
  | .goled => x < 128 ∧ y = 128 ∧ 2 ≤ w ∧ h ≠ 0
  | .woled => w = 0 ∨ h < 8 ∨ 128 ≤ x ∨ 64 ≤ y

theorem nextChar_not_raising (code : FaultCode) : (nextChar s).pos ≠ .raising code := by
  unfold nextChar
  dsimp only
  split <;> nofun

theorem writeDone_not_raising (code : FaultCode) : (writeDone s).pos ≠ .raising code := by
  unfold writeDone
  split
  · exact nextChar_not_raising code
  all_goals nofun

/-- Under FAULT a degenerate window raises DEGENERATE before the first event. -/
theorem startWrite_raises {x y w h : Nat} (hwin : window s = ⟨x, y, w, h⟩) (hc : s.cfg.degenerateExtent = .fault)
    (hd : degenerateOn s.cfg.variant x y w h) : startWrite s = raiseFault .degenerate s := by
  cases hv : s.cfg.variant <;> rw [hv] at hd
  case epd =>
    rw [startWrite_epd hv, hwin, refusesDegenerate_eq_true hc ((epdDegenerate_iff x y w h _).mpr hd)]
    rfl
  case goled =>
    obtain ⟨hx, hy, hw, hh⟩ := hd
    have hg : goledGuard ⟨x, y, w, h⟩ = false := by
      rw [← Bool.not_eq_true, goledGuard_iff]
      omega
    rw [startWrite_goled hv, hwin, hg, refusesDegenerate_eq_true hc ((goledDegenerate_iff _ hg).mpr hy)]
    rfl
  case woled =>
    rw [startWrite_woled hv, hwin, refusesDegenerate_eq_true hc ((woledDegenerate_iff x y w h _).mpr hd)]
    rfl

/-- Under EMPTY, and for a window that is not degenerate, the write goes on: it begins, or the GOLED guard ends it. -/
theorem startWrite_not_raising {x y w h : Nat} (hwin : window s = ⟨x, y, w, h⟩)
    (hd : s.cfg.degenerateExtent = .empty ∨ ¬ degenerateOn s.cfg.variant x y w h) (code : FaultCode) :
    (startWrite s).pos ≠ .raising code := by
  cases hv : s.cfg.variant <;> rw [hv] at hd
  case epd =>
    have hin : s.cfg.degenerateExtent = .empty ∨ (8 ≤ w ∧ 0 < h ∧ x < 200 ∧ y < 200) :=
      hd.imp_right fun hn => by simp only [degenerateOn] at hn; omega
    rw [startWrite_epd_begins hv hwin hin]
    nofun
  case goled =>
    rw [startWrite_goled hv, hwin]
    split
    · exact writeDone_not_raising code
    · next hg =>
      have hok : refusesDegenerate s.cfg (goledDegenerate ⟨x, y, w, h⟩ (goledClip ⟨x, y, w, h⟩ s.goled)) = false := by
        refine refusesDegenerate_eq_false (hd.imp_right fun hn => ?_)
        rw [← Bool.not_eq_true, goledDegenerate_iff _ (Bool.not_eq_true _ ▸ hg)]
        rw [goledGuard_iff] at hg
        simp only [degenerateOn] at hn
        omega
      rw [hok]
      nofun
  case woled =>
    have hin : s.cfg.degenerateExtent = .empty ∨ (0 < w ∧ 8 ≤ h ∧ x < 128 ∧ y < 64) :=
      hd.imp_right fun hn => by simp only [degenerateOn] at hn; omega
    rw [startWrite_woled_begins hv hwin hin]
    nofun

/-- Settles O15: both requests and every character cell start the unit's algorithm over their window. -/
theorem degenerateWindows : Obligations.DegenerateWindows := by
  unfold Obligations.DegenerateWindows
  refine ⟨fun s x y w h hm hx hy => ?_, fun s hm hsrc hcx => ?_⟩
  · rw [exec_setFrameCallback_idle hm hx hy, exec_setFrameBuffer_idle hm hx hy]
    have hlive : s.mode ≠ .halted := by simp [hm]
    refine ⟨fun hc hd => ⟨⟨congrArg _ (startWrite_raises rfl hc ?_), (run_raiseFault _ (by exact hlive)).1⟩,
      ⟨congrArg _ (startWrite_raises rfl hc ?_), (run_raiseFault _ (by exact hlive)).1⟩⟩,
      fun hd => ⟨⟨_, rfl, startWrite_not_raising rfl (hd.imp_right fun hn hdeg => hn ?_)⟩,
        ⟨_, rfl, startWrite_not_raising rfl (hd.imp_right fun hn hdeg => hn ?_)⟩⟩⟩
    · exact hd
    · exact hd
    · exact hdeg
    · exact hdeg
  · obtain ⟨cx, hcx⟩ := Int.eq_ofNat_of_zero_le hcx
    have hwin : window s = ⟨cx, s.latch.y.toNat, (8 : Nat), (8 : Nat)⟩ := by simp [window, hsrc, hcx]
    have hiff : (match s.cfg.variant with
        | .epd => 200 ≤ s.text.cx ∨ 200 ≤ s.latch.y.toNat
        | .goled => s.text.cx < 128 ∧ s.latch.y.toNat = 128
        | .woled => 128 ≤ s.text.cx ∨ 64 ≤ s.latch.y.toNat) ↔
        degenerateOn s.cfg.variant cx s.latch.y.toNat 8 8 := by
      rw [hcx]
      cases s.cfg.variant <;> simp only [degenerateOn] <;> omega
    refine ⟨fun hc hd => ⟨congrArg _ (startWrite_raises hwin hc (hiff.mp hd)),
      (run_raiseFault _ (by simp [hm])).1⟩, fun hd => startWrite_not_raising hwin (hd.imp_right fun hn hdeg => hn ?_)⟩
    exact hiff.mpr hdeg

/-! ### How a GOLED frame write begins -/

/-- A GOLED write of a window `⟨x, y, w, h⟩` that the guard passes and check (4) admits begins (42_gray_oled R262). -/
theorem startWrite_goled_begins {x y w h : Nat} (hv : s.cfg.variant = .goled) (hwin : window s = ⟨x, y, w, h⟩)
    (hg : x < 128 ∧ y ≤ 128 ∧ 2 ≤ w ∧ 0 < h) (hd : s.cfg.degenerateExtent = .empty ∨ y < 128) :
    startWrite s = goledBegin ⟨x, y, w, h⟩ s := by
  have hguard : goledGuard ⟨x, y, w, h⟩ = false := by
    rw [← Bool.not_eq_true, goledGuard_iff]
    omega
  have hok : refusesDegenerate s.cfg (goledDegenerate ⟨x, y, w, h⟩ (goledClip ⟨x, y, w, h⟩ s.goled)) = false := by
    refine refusesDegenerate_eq_false (hd.imp_right fun hy => ?_)
    rw [← Bool.not_eq_true, goledDegenerate_iff _ hguard]
    omega
  rw [startWrite_goled hv, hwin, hguard, hok]
  rfl

/-- Two operands that fit leave a window command with no free draw (00_scope R18). -/
theorem standAtWindow_fits {op : Byte} {first last : Int} (p : Pos) (h0 : 0 ≤ first) (h1 : first ≤ 255) (h2 : 0 ≤ last)
    (h3 : last ≤ 255) : standAtWindow op first last p s =
      standAt ⟨[op, BitVec.ofInt 8 first, BitVec.ofInt 8 last], []⟩ p s := by
  simp only [standAtWindow, enc8_fits h0 h1, enc8_fits h2 h3]

/-- Settles O37: both ends of a window that passes the guard fit a byte. -/
theorem goledFrameWriteBegins : Obligations.GoledFrameWriteBegins := by
  unfold Obligations.GoledFrameWriteBegins
  intro s x y w h hm hv hx hy h1 h2 h3 h4 hd
  have hbegin (u : State) (hv : u.cfg.variant = .goled) (hwin : window u = ⟨x.toNat, y.toNat, w.toNat, h.toNat⟩)
      (hd : u.cfg.degenerateExtent = .empty ∨ y.toNat < 128) : startWrite u =
      standAt ⟨[0x15, BitVec.ofInt 8 ((x.toNat : Int) / 2),
        BitVec.ofInt 8 (min ((x.toNat : Int) / 2 + (w.toNat : Int) / 2 - 1) 63)], []⟩ .goledRowWindow
        { u with mode := .writing, goled := goledClip ⟨x.toNat, y.toNat, w.toNat, h.toNat⟩ u.goled } := by
    rw [startWrite_goled_begins hv hwin ⟨h1, h2, h3, h4⟩ hd]
    exact standAtWindow_fits _ (by simp only [goledClip]; omega) (by simp only [goledClip]; omega)
      (by simp only [goledClip]; omega) (by simp only [goledClip]; omega)
  exact ⟨(exec_setFrameCallback_idle hm hx hy).trans (congrArg _ (hbegin _ hv rfl hd)),
    (exec_setFrameBuffer_idle hm hx hy).trans (congrArg _ (hbegin _ hv rfl hd))⟩

/-! ### The buffer adapter -/

section Adapter

variable {win : Window} {len : Nat} {px py : Int}

/-- Inside its rectangle the adapter has the index `row*width + col`, where the buffer is that long (20_memory R73). -/
theorem adapterIndex_inside (hin : win.y ≤ py ∧ py < win.y + win.h ∧ win.x ≤ px ∧ px < win.x + win.w) :
    adapterIndex win len px py =
      if len ≤ ((py - win.y) * win.w + (px - win.x)).toNat then none
      else some ((py - win.y) * win.w + (px - win.x)).toNat :=
  if_neg (by omega)

/-- Outside its rectangle the adapter has no index (20_memory R73). -/
theorem adapterIndex_outside (hout : ¬ (win.y ≤ py ∧ py < win.y + win.h ∧ win.x ≤ px ∧ px < win.x + win.w)) :
    adapterIndex win len px py = none :=
  if_pos (by omega)

theorem pix_buffer (hs : s.src = .buffer) :
    pix s px py = (adapterIndex (window s) s.ports.buf.length px py).bind (fun i => s.ports.buf[i]?) := by
  simp [pix, hs]

theorem pix_text (hs : s.src = .text) :
    pix s px py = (adapterIndex ⟨s.text.cx, s.latch.y.toNat, 8, 8⟩ 64 px py).bind (fun i => s.tb[i]?) := by
  simp [pix, hs, window]

/-- A pixel of a character's cell is TB's at its row and column (44_text R333). -/
theorem pix_text_inside (hs : s.src = .text)
    (hin : (s.latch.y.toNat : Int) ≤ py ∧ py < s.latch.y.toNat + 8 ∧ s.text.cx ≤ px ∧ px < s.text.cx + 8) :
    ∃ hi : ((py - s.latch.y.toNat) * 8 + (px - s.text.cx)).toNat < 64,
      pix s px py = some s.tb[((py - s.latch.y.toNat) * 8 + (px - s.text.cx)).toNat] := by
  have hi : ((py - s.latch.y.toNat) * 8 + (px - s.text.cx)).toNat < 64 := by omega
  refine ⟨hi, ?_⟩
  rw [pix_text hs, adapterIndex_inside hin, if_neg (by exact Nat.not_le.mpr hi)]
  exact Vector.getElem?_eq_getElem hi

theorem pix_text_outside (hs : s.src = .text)
    (hout : ¬ ((s.latch.y.toNat : Int) ≤ py ∧ py < s.latch.y.toNat + 8 ∧ s.text.cx ≤ px ∧ px < s.text.cx + 8)) :
    pix s px py = none := by
  rw [pix_text hs, adapterIndex_outside hout]
  rfl

/-- A query out of the adapter's range takes ADAPTER_RANGE in its place. -/
theorem query_none {k : Color → State → State} (h : pix s px py = none) :
    query px py s k = takeFault .adapterRange s := by
  simp [query, h]

/-- At each of its positions, the unit queries the pixel its working registers say (41_epaper R211, 42_gray_oled R262,
43_wide_oled R301). -/
theorem seqStep_query
    (hp : (s.pos = .epdPixel ∧ px = s.epd.xa + 8 * s.epd.g + s.epd.k ∧ py = s.epd.j) ∨
      (s.pos = .goledLeft ∧ px = 2 * s.goled.c ∧ py = s.goled.r) ∨
      (s.pos = .goledRight ∧ px = 2 * s.goled.c + 1 ∧ py = s.goled.r) ∨
      (s.pos = .woledPixel ∧ px = s.woled.c ∧ py = 8 * s.woled.p + s.woled.off)) :
    ∃ k, seqStep s = query px py s k := by
  rcases hp with ⟨hp, rfl, rfl⟩ | ⟨hp, rfl, rfl⟩ | ⟨hp, rfl, rfl⟩ | ⟨hp, rfl, rfl⟩ <;> rw [seqStep, hp] <;>
    exact ⟨_, rfl⟩

end Adapter

/-- Settles O46: the index of the adapter inside and outside its rectangle, and the query where there is none. -/
theorem bufferAdapter : Obligations.BufferAdapter := by
  unfold Obligations.BufferAdapter
  refine fun s px py => ⟨fun hs => ⟨fun hin hl => ?_, fun hout => ?_⟩, fun hs => ⟨fun hin => ?_, pix_text_outside hs⟩,
    fun _ hnone hm hb hsend hp => ?_⟩
  · rw [pix_buffer hs, window, hs, adapterIndex_inside hin, if_neg (by exact Nat.not_le.mpr hl)]
    exact List.getElem?_eq_getElem hl
  · rw [pix_buffer hs, window, hs]
    by_cases hin : (s.latch.y.toNat : Int) ≤ py ∧ py < s.latch.y.toNat + s.latch.h.toNat ∧
        (s.latch.x.toNat : Int) ≤ px ∧ px < s.latch.x.toNat + s.latch.w.toNat
    · rw [adapterIndex_inside hin, if_pos (hout.resolve_left fun hn => hn hin)]
      rfl
    · rw [adapterIndex_outside hin]
      rfl
  · obtain ⟨hi, e⟩ := pix_text_inside hs hin
    rw [e]
    exact ⟨(Vector.getElem?_eq_getElem hi).symm, nofun⟩
  · obtain ⟨k, hk⟩ := seqStep_query hp
    have hidle : s.pos ≠ .idle := by
      intro hn
      simp [hn] at hp
    exact ⟨by rw [step_point hm hb hsend hidle, hk, query_none hnone], (run_raiseFault _ hm).2⟩

/-! ### The cells of DRAW_TEXT -/

/-- A string byte the host bound and kept as it was is read into CH, and its glyph is read from the top left. -/
theorem step_readChar {b : Byte} (hm : s.mode ≠ .halted) (hp : s.pos = .readChar) (hb : s.bus = []) (hs : s.send = none)
    (hc : s.changed = []) (hstr : s.ports.str[s.text.i]? = some b) :
    step s = .next { s with text := { s.text with ch := b, gr := 0, gc := 0 }, pos := .readGlyph } := by
  rw [step_point hm hb hs (by simp [hp])]
  simp only [seqStep, hp, readChar, strRead_stable hc hstr]

/-- Settles O55: the read of a string byte, TB as the adapter of the cell, and the end of a character. -/
theorem textCells : Obligations.TextCells := by
  unfold Obligations.TextCells
  refine ⟨fun s b => step_readChar, fun s px py hs => ⟨fun r c hr hc hx hy => ?_, fun hout => ?_, fun hi => ?_,
    fun hi => ?_⟩⟩
  · obtain ⟨hi, e⟩ := pix_text_inside (s := s) (px := px) (py := py) hs (by omega)
    have hidx : ((py - s.latch.y.toNat) * 8 + (px - s.text.cx)).toNat = 8 * r + c := by omega
    simp only [hidx] at e
    exact e
  · exact pix_text_outside hs (by omega)
  · simp only [writeDone, hs, nextChar, if_pos hi]
  · simp only [writeDone, hs, nextChar, if_neg (Nat.not_lt.mpr hi), finishRequest]

/-- A color field within the variant's limit (30_encoding R114). -/
theorem colorFieldOk_of_le {v : Variant} {c : Byte} (h : v ≠ .goled → c.toNat ≤ 1) : colorFieldOk v c = true := by
  cases v with
  | goled => rfl
  | epd | woled => exact decide_eq_true (h nofun)

/-- Settles O53: the limits are met, and the first read is of byte 0. -/
theorem drawTextBegins : Obligations.DrawTextBegins := by
  unfold Obligations.DrawTextBegins
  intro s fg bg x y n hm hx hy hcol latched
  have hok : (textLimitOk x y n && colorFieldOk s.cfg.variant fg && colorFieldOk s.cfg.variant bg) = true := by
    rw [colorFieldOk_of_le fun hv => (hcol hv).1, colorFieldOk_of_le fun hv => (hcol hv).2]
    simp [textLimitOk, hx, hy]
  have he : exec (.drawText fg bg x y n) s =
      .next (if n = 0 then finishRequest latched else { latched with mode := .writing, pos := .readChar }) := by
    simp only [exec, execDrawText, hok, serve_idle hm]
    rfl
  refine ⟨fun hn => ⟨he.trans (by rw [if_neg hn]), fun b hb hs hc hstr => run_one (step_readChar nofun rfl hb hs hc hstr)⟩,
    fun hn => he.trans ?_⟩
  rw [if_pos hn]
  simp only [finishRequest, latched, hm]

end Sys2Proof.Machine
end

section
/-! SUPPORT and PROOFS. Runs of a request: from one command, busy wait or pixel byte to the next, and what each adds to the
trace and to frame memory; with them DISPLAY_FRAME (O50) and INIT on EPD (O22). -/

namespace Sys2Proof.Machine

variable {s t u : State}

/-! ### From one command to the next -/

/-- After `k` operations that did not fail, the rest do not either. -/
theorem quiet_after {k n : Nat} (hq : quiet (k + n) s) (ho : t.oracle = s.oracle) (hk : t.ops = s.ops + k) :
    quiet n t := by
  intro f hf
  have := hq f (ho ▸ hf)
  omega

/-- Some number of steps leads from `s` to `t`. -/
def Reaches (s t : State) : Prop := ∃ n, Sys2Proof.core.run n s = .next t

theorem Reaches.refl (s : State) : Reaches s s := ⟨0, rfl⟩

theorem Reaches.trans (h : Reaches s t) (k : Reaches t u) : Reaches s u := by
  obtain ⟨m, hm⟩ := h
  obtain ⟨n, hn⟩ := k
  exact ⟨m + n, (run_add n hm).trans hn⟩

theorem Reaches.of_step (h : step s = .next t) : Reaches s t := ⟨1, run_one h⟩

/-- Between two commands of a request in MODE `m`: nothing is on the bus, nothing is due, and no operation will fail. -/
structure Between (m : Mode) (s : State) : Prop where
  mode : s.mode = m
  bus : s.bus = []
  send : s.send = none
  oracle : s.oracle = none

theorem Between.live {m : Mode} (h : Between m s) (hm : m ≠ .halted := by decide) : s.mode ≠ .halted :=
  fun hn => hm (h.mode.symm.trans hn)

theorem Between.quiet {m : Mode} (h : Between m s) (n : Nat) : quiet n s := quiet_of_oracle h.oracle n

/-- At a point of the algorithm, the event or read there. -/
theorem Between.step {m : Mode} (h : Between m s) (hm : m ≠ .halted := by decide) (hp : s.pos ≠ .idle) :
    step s = .next (seqStep s) := step_point (h.live hm) h.bus h.send hp

/-- The bytes of one wire command in a space, not a pixel byte. -/
def IsCommand (sp : Space) (w : WireWord) : Prop :=
  ∃ i, decode ⟨sp, w⟩ = .ok i ∧ (encode i).word = w ∧ isPixelData i = false ∧ i.wf = true

theorem isCommand_epd {op : Byte} (hop : epdOpcodes.contains op = true) (payload : List Byte) :
    IsCommand .epd ⟨[op], payload⟩ := by
  simp only [epdOpcodes, List.contains_eq_mem, List.mem_cons, List.not_mem_nil, or_false, decide_eq_true_eq] at hop
  rcases hop with rfl | rfl | rfl | rfl | rfl | rfl | rfl | rfl | rfl | rfl | rfl | rfl <;>
    exact ⟨_, rfl, rfl, rfl, rfl⟩

theorem isCommand_goled {op : Byte} (hop : op = 0x15 ∨ op = 0x75) (a b : Byte) :
    IsCommand .goled ⟨[op, a, b], []⟩ := by
  rcases hop with rfl | rfl <;> exact ⟨_, rfl, rfl, rfl, rfl⟩

theorem isCommand_woled {op : Byte} (hop : op = 0x21 ∨ op = 0x22) (a b : Byte) :
    IsCommand .woled ⟨[op, a, b], []⟩ := by
  rcases hop with rfl | rfl <;> exact ⟨_, rfl, rfl, rfl, rfl⟩

/-- The state after the last event of a wire command that goes on at `p`. -/
def sent (w : WireWord) (p : Pos) (s : State) : State := { afterWord w s with pos := p }

/-- A wire command that no operation fails: as many steps as it has events, and then the sequencer moves on. -/
theorem run_standAt {w : WireWord} (p : Pos) (hm : s.mode ≠ .halted) (hb : s.bus = []) (hc : IsCommand (wireSpace s) w)
    (hq : quiet (wordEvents s.cfg.framing w).length s) :
    Sys2Proof.core.run (wordEvents s.cfg.framing w).length (standAt w p s) = .next (resume (sent w p s)) := by
  obtain ⟨i, hd, he, hp, hw⟩ := hc
  have hlen : (wordEvents s.cfg.framing w).length = (wordEvents s.cfg.framing w).length - 1 + 1 := by
    have hne : w.cmd ≠ [] := he ▸ encode_cmd_ne_nil hp hw
    simp [wordEvents, hne, cmdEvents]
  obtain ⟨t, ht, hr⟩ := wireCommandSendsItsBytes (standAt w p s) i (wireVariant_of_decode (s := standAt w p s) hd) hp hw hm
    hb (he ▸ hq)
  rw [he] at hr
  rw [hlen, run_succ _ ((step_send (s := standAt w p s) hm hb rfl hd).trans ht)]
  exact hr

theorem Between.reaches_command {m : Mode} (h : Between m s) {w : WireWord} (p : Pos) (hc : IsCommand (wireSpace s) w)
    (hm : m ≠ .halted := by decide) : Reaches (standAt w p s) (resume (sent w p s)) :=
  ⟨_, run_standAt p (h.live hm) h.bus hc (h.quiet _)⟩

theorem Between.sent {m : Mode} (h : Between m s) (w : WireWord) (p : Pos) : Between m (sent w p s) :=
  ⟨h.mode, rfl, rfl, h.oracle⟩

/-! ### Busy waits -/

theorem busyAsserted_cons {l : Level} {rest : List Level} (h : s.busyIn = l :: rest) :
    busyAsserted s = (l == s.cfg.busyActiveLevel) := by
  simp [busyAsserted, busyLevel, h]

theorem sampleBusy_cons {l : Level} {rest : List Level} (h : s.busyIn = l :: rest) :
    sampleBusy s = { s with busyIn := rest, trace := s.trace ++ [.busySample (l == s.cfg.busyActiveLevel)] } := by
  simp [sampleBusy, busyNext, busyAsserted_cons h, h, emit]

theorem busyClearLevel_ne (c : Config) : (busyClearLevel c == c.busyActiveLevel) = false := by
  unfold busyClearLevel
  cases c.busyActiveLevel <;> rfl

theorem seqStep_sample {site : WaitSite} (hp : s.pos = .sample site) : seqStep s = pinOp s (fun s =>
    if busyAsserted s then { sampleBusy s with pos := .poll site } else waitDone site (sampleBusy s)) := by
  rw [seqStep, hp]

section Wait

variable {site : WaitSite} {rest : List Level} (hm : s.mode ≠ .halted) (hp : s.pos = .sample site) (hb : s.bus = [])
  (hs : s.send = none)

include hm hp hb hs

/-- A sample that finds busy clear ends the wait (41_epaper R230). -/
theorem step_sample_clear (hq : quiet 1 s) (hbusy : s.busyIn = busyClearLevel s.cfg :: rest) :
    step s = .next (waitDone site
      { s with busyIn := rest, trace := s.trace ++ [.busySample false], ops := s.ops + 1 }) := by
  have hbusy' : ({ s with ops := s.ops + 1 } : State).busyIn = busyClearLevel s.cfg :: rest := hbusy
  rw [step_point hm hb hs (by simp [hp]), seqStep_sample hp]
  simp only [pinOp_ok (oracleFails_of_quiet hq), busyAsserted_cons hbusy', sampleBusy_cons hbusy', busyClearLevel_ne,
    Bool.false_eq_true, if_false]

/-- A sample that finds busy asserted is followed by the poll delay, and then the next sample (41_epaper R230). -/
theorem run_sample_busy (hq : quiet 1 s) (hbusy : s.busyIn = s.cfg.busyActiveLevel :: rest) :
    Sys2Proof.core.run 2 s = .next
      { s with
        busyIn := rest
        trace := s.trace ++ [.busySample true, .delay s.cfg.pollMs]
        ops := s.ops + 1 } := by
  have hbusy' : ({ s with ops := s.ops + 1 } : State).busyIn = s.cfg.busyActiveLevel :: rest := hbusy
  have h1 : step s = .next { s with
      busyIn := rest, trace := s.trace ++ [.busySample true], ops := s.ops + 1, pos := .poll site } := by
    rw [step_point hm hb hs (by simp [hp]), seqStep_sample hp]
    simp only [pinOp_ok (oracleFails_of_quiet hq), busyAsserted_cons hbusy', sampleBusy_cons hbusy', beq_self_eq_true,
      if_true]
  rw [run_succ 1 h1]
  refine run_one ((step_point (by exact hm) (by exact hb) (by exact hs) (by simp)).trans ?_)
  simp [seqStep, emit, ← hp]

/-- `WaitBusy()` while busy stays asserted: a sample and a poll delay each time (41_epaper R230, R231). -/
theorem run_polls (n : Nat) (hq : quiet n s)
    (hbusy : s.busyIn = List.replicate n s.cfg.busyActiveLevel ++ rest) :
    Sys2Proof.core.run (2 * n) s = .next { s with
      busyIn := rest
      trace := s.trace ++ (List.replicate n [Event.busySample true, Event.delay s.cfg.pollMs]).flatten
      ops := s.ops + n } := by
  induction n generalizing s with
  | zero =>
    simp only [List.replicate_zero, List.nil_append] at hbusy
    simp [run_zero, ← hbusy]
  | succ n ih =>
    have h1 := run_sample_busy hm hp hb hs (quiet_mono (by omega) hq) (by rw [hbusy]; rfl)
    rw [show 2 * (n + 1) = 2 + 2 * n by omega]
    refine (run_add _ h1).trans ((ih (by exact hm) (by exact hp) (by exact hb) (by exact hs)
      (by exact quiet_after (k := 1) (quiet_mono (by omega) hq) rfl rfl) rfl).trans ?_)
    simp [List.replicate_succ, Nat.add_assoc, Nat.add_comm 1]

/-- `WaitBusy()` that finds busy asserted n times and then clear (41_epaper R230). -/
theorem run_waitBusy (n : Nat) (hq : quiet (n + 1) s)
    (hbusy : s.busyIn = List.replicate n s.cfg.busyActiveLevel ++ busyClearLevel s.cfg :: rest) :
    Sys2Proof.core.run (2 * n + 1) s = .next (waitDone site { s with
      busyIn := rest
      trace := s.trace ++ waitEvents s.cfg.pollMs n
      ops := s.ops + (n + 1) }) := by
  refine (run_add 1 (run_polls hm hp hb hs n (quiet_mono (by omega) hq) hbusy)).trans
    (run_one ((step_sample_clear (by exact hm) (by exact hp) (by exact hb) (by exact hs)
      (by exact quiet_after hq rfl rfl) rfl).trans ?_))
  simp [waitEvents, Nat.add_assoc]

end Wait

/-! ### The commit -/

/-- A command with no data-level byte is one command-level transaction. -/
@[simp] theorem wordEvents_cmd (fr : Framing) (b : Byte) (cmd : List Byte) :
    wordEvents fr ⟨b :: cmd, []⟩ = cmdEvents (b :: cmd) := by
  cases fr <;> simp [wordEvents, dataEvents]

@[simp] theorem cmdEvents_length (bytes : List Byte) : (cmdEvents bytes).length = bytes.length + 3 := by
  simp [cmdEvents]

/-- On EPD the request comes to stand at the activate command (41_epaper R240). -/
theorem exec_displayFrame_epd (hm : s.mode = .idle) (hv : s.cfg.variant = .epd) : exec .displayFrame s =
    .next (standAt ⟨[0x20], []⟩ (.sample .commit)
      { s with latch := ⟨0x05, 0, 0, 0, 0, 0, 0, 0⟩, mode := .busyUpdating }) := by
  simp only [exec, execDisplayFrame, serve_idle hm, hv]

/-- On GOLED and WOLED it ends at once (42_gray_oled R280, 43_wide_oled R320). -/
theorem exec_displayFrame_oled (hm : s.mode = .idle) (hv : s.cfg.variant ≠ .epd) : exec .displayFrame s =
    .next { s with latch := ⟨0x05, 0, 0, 0, 0, 0, 0, 0⟩, pos := .idle } := by
  cases hv' : s.cfg.variant with
  | epd => exact absurd hv' hv
  | goled | woled => simp only [exec, execDisplayFrame, serve_idle hm, hv', finishRequest, hm]

/-- Settles O50: on EPD the activate command, the wait, and the end of the wait. -/
theorem displayFrame : Obligations.DisplayFrame := by
  unfold Obligations.DisplayFrame
  intro s hm
  refine ⟨exec_displayFrame_oled hm, exec_displayFrame_epd hm, fun n rest hv hb hq hbusy => ?_⟩
  let u : State := { s with latch := ⟨0x05, 0, 0, 0, 0, 0, 0, 0⟩, mode := .busyUpdating }
  have hcmd := run_standAt (s := u) (w := ⟨[0x20], []⟩) (.sample .commit) nofun hb
    (by simp only [wireSpace, u, hv]; exact isCommand_epd rfl [])
    (by rw [wordEvents_cmd]; exact quiet_mono (s := s) (by simp) hq)
  rw [resume_of_isMove_eq_false rfl, wordEvents_cmd, cmdEvents_length] at hcmd
  have hwait := run_waitBusy (s := sent ⟨[0x20], []⟩ (.sample .commit) u) nofun rfl rfl rfl n
    (quiet_after (k := 4) (s := s) (quiet_mono (by omega) hq) rfl (by simp [sent, afterWord, u])) hbusy
  have hrun := (run_add _ hcmd).trans hwait
  rw [show [(0x20 : Byte)].length + 3 + (2 * n + 1) = 2 * n + 5 by simp only [List.length_singleton]; omega] at hrun
  refine ⟨_, _, exec_displayFrame_epd hm hv, hrun, rfl, rfl, rfl, ?_, fun a => ?_, fun a => rfl⟩
  · simp [waitDone, finishRequest, sent, afterWord, u]
  · simp [waitDone, finishRequest, sent, afterWord, visible, hv, u]

/-! ### What a stretch of a request adds -/

/-- Bytes stored one after another, each at its address (20_memory R96). -/
def writeAll (m ws : List Host.Cell) : List Host.Cell := ws.foldl (fun m w => Memory.write m w.1 w.2) m

/-- From `s` to `t` the events `evs` enter the trace and the bytes `ws` are stored; the parameters, the request, its pixel
source and the oracle stay as they are. -/
structure Advanced (s t : State) (evs : List Event) (ws : List Host.Cell) : Prop where
  cfg : t.cfg = s.cfg
  latch : t.latch = s.latch
  text : t.text = s.text
  tb : t.tb = s.tb
  ports : t.ports = s.ports
  src : t.src = s.src
  changed : t.changed = s.changed
  oracle : t.oracle = s.oracle
  trace : t.trace = s.trace ++ evs
  fm : t.fm = writeAll s.fm ws

theorem Advanced.refl (s : State) : Advanced s s [] [] :=
  ⟨rfl, rfl, rfl, rfl, rfl, rfl, rfl, rfl, (List.append_nil _).symm, rfl⟩

theorem Advanced.trans {evs evs' : List Event} {ws ws' : List Host.Cell} (h : Advanced s t evs ws)
    (k : Advanced t u evs' ws') : Advanced s u (evs ++ evs') (ws ++ ws') where
  cfg := k.cfg.trans h.cfg
  latch := k.latch.trans h.latch
  text := k.text.trans h.text
  tb := k.tb.trans h.tb
  ports := k.ports.trans h.ports
  src := k.src.trans h.src
  changed := k.changed.trans h.changed
  oracle := k.oracle.trans h.oracle
  trace := by rw [k.trace, h.trace, List.append_assoc]
  fm := by rw [k.fm, h.fm, writeAll, writeAll, writeAll, List.foldl_append]

/-- The same, the later stretch first. -/
theorem Advanced.after {evs evs' : List Event} {ws ws' : List Host.Cell} (k : Advanced t u evs' ws')
    (h : Advanced s t evs ws) : Advanced s u (evs ++ evs') (ws ++ ws') := h.trans k

/-- A wire command adds its events. -/
theorem Advanced.sent (w : WireWord) (p : Pos) (s : State) :
    Advanced s (sent w p s) (wordEvents s.cfg.framing w) [] :=
  ⟨rfl, rfl, rfl, rfl, rfl, rfl, rfl, rfl, rfl, rfl⟩

/-! ### INIT on EPD -/

/-- The reset pulse, event by event (41_epaper R202). -/
theorem reaches_resetPulse (h : Between .resetting s) (hp : s.pos = .resetLow) :
    Reaches s (epdInitNext s.cfg.epdInitSeq { s with
      mode := .initializing
      pos := .resetSettle
      pins := { s.pins with rst := .high }
      trace := s.trace ++ [.setRst .low, .delay s.cfg.resetLowMs, .setRst .high, .delay s.cfg.resetSettleMs]
      ops := s.ops + 2 }) := by
  have hok (u : State) (ho : u.oracle = s.oracle) : oracleFails u = none := oracleFails_none (ho.trans h.oracle)
  have hlow : step s = .next { driveRst .low { s with ops := s.ops + 1 } with pos := .resetHold } := by
    rw [h.step (by decide) (by simp [hp]), seqStep, hp]
    exact congrArg _ (pinOp_ok (hok s rfl) _)
  have hhold {u : State} (hu : Between .resetting u) (hp : u.pos = .resetHold) :
      step u = .next { emit (.delay u.cfg.resetLowMs) u with pos := .resetHigh } := by
    rw [hu.step (by decide) (by simp [hp]), seqStep, hp]
  have hhigh {u : State} (hu : Between .resetting u) (hp : u.pos = .resetHigh) :
      step u = .next { driveRst .high { u with ops := u.ops + 1 } with pos := .resetSettle } := by
    rw [hu.step (by decide) (by simp [hp]), seqStep, hp]
    exact congrArg _ (pinOp_ok (oracleFails_none hu.oracle) _)
  have hsettle {u : State} (hu : Between .resetting u) (hp : u.pos = .resetSettle) : step u = .next
      (epdInitNext u.cfg.epdInitSeq { emit (.delay u.cfg.resetSettleMs) u with mode := .initializing }) := by
    rw [hu.step (by decide) (by simp [hp]), seqStep, hp]
  have h1 := (Reaches.of_step hlow).trans (Reaches.of_step (hhold ⟨h.mode, h.bus, h.send, h.oracle⟩ rfl))
  have h2 := h1.trans (Reaches.of_step (hhigh ⟨h.mode, h.bus, h.send, h.oracle⟩ rfl))
  have h3 := h2.trans (Reaches.of_step (hsettle ⟨h.mode, h.bus, h.send, h.oracle⟩ rfl))
  simpa [emit, driveRst] using h3

/-- The rest of EPD_INIT_SEQ, its waits finding busy clear: each action in order, and then INIT ends (41_epaper R201). Every
command leaves chip-select deasserted. -/
theorem reaches_epdInit {left : List Level} (rest : List InitAction) (h : Between .initializing s)
    (hv : s.cfg.variant = .epd) (hr : rest.all initActionOk = true)
    (hbusy : s.busyIn = List.replicate (initWaits rest) (busyClearLevel s.cfg) ++ left) :
    ∃ t, Reaches (epdInitNext rest s) (finishRequest t) ∧
      Advanced s t (rest.map (initActionEvents s.cfg)).flatten [] ∧ t.busyIn = left ∧ t.pins.rst = s.pins.rst ∧
      (s.pins.cs = .deassert ∨ initOpcodes rest ≠ [] → t.pins.cs = .deassert) := by
  induction rest generalizing s with
  | nil => exact ⟨s, Reaches.refl _, Advanced.refl s, hbusy, rfl, fun hc => hc.resolve_right fun hn => hn rfl⟩
  | cons act rest ih =>
    obtain ⟨hact, hrest⟩ := Bool.and_eq_true_iff.mp hr
    cases act with
    | cmd op payload =>
      have hc : IsCommand (wireSpace s) ⟨[op], payload⟩ := by
        rw [wireSpace, hv]
        exact isCommand_epd hact payload
      obtain ⟨t, hreach, hadv, hleft, hrst, hcs⟩ := ih (h.sent ⟨[op], payload⟩ (.epdInit rest)) hv hrest hbusy
      exact ⟨t, (h.reaches_command _ hc).trans hreach, (Advanced.sent ⟨[op], payload⟩ (.epdInit rest) s).trans hadv, hleft,
        hrst, fun _ => hcs (.inl rfl)⟩
    | wait =>
      let u : State := { s with pos := .sample (.init rest) }
      have hstep := step_sample_clear (s := u) (by exact h.live) rfl h.bus h.send (quiet_of_oracle h.oracle 1) hbusy
      obtain ⟨t, hreach, hadv, hleft, hrst, hcs⟩ := ih (s := { u with
          pos := .epdInit rest
          busyIn := List.replicate (initWaits rest) (busyClearLevel s.cfg) ++ left
          trace := s.trace ++ [.busySample false]
          ops := s.ops + 1 }) ⟨h.mode, h.bus, h.send, h.oracle⟩ hv hrest rfl
      exact ⟨t, (Reaches.of_step hstep).trans hreach,
        hadv.after (s := s) (evs := [.busySample false]) (ws := [])
          ⟨rfl, rfl, rfl, rfl, rfl, rfl, rfl, rfl, rfl, rfl⟩, hleft, hrst,
        hcs⟩
    | pause ms =>
      let u : State := { s with pos := .pause ms rest }
      have hstep : step u = .next (epdInitNext rest (emit (.delay ms) u)) :=
        step_point (by exact h.live) h.bus h.send nofun
      obtain ⟨t, hreach, hadv, hleft, hrst, hcs⟩ := ih (s := emit (.delay ms) u) ⟨h.mode, h.bus, h.send, h.oracle⟩ hv
        hrest hbusy
      exact ⟨t, (Reaches.of_step hstep).trans hreach,
        hadv.after (s := s) (evs := [.delay ms]) (ws := [])
          ⟨rfl, rfl, rfl, rfl, rfl, rfl, rfl, rfl, rfl, rfl⟩, hleft, hrst, hcs⟩

/-- An admitted EPD_INIT_SEQ has a command (41_epaper R205). -/
theorem initOpcodes_ne_nil {c : Config} (hc : c.wf = true) : initOpcodes c.epdInitSeq ≠ [] := by
  simp only [Config.wf, epdInitSeqOk, Bool.and_eq_true] at hc
  obtain ⟨⟨-, hfirst⟩, -⟩ := hc
  intro hn
  simp [hn] at hfirst

/-- Settles O22: the reset pulse, then the actions one after another. -/
theorem initOnEpd : Obligations.InitOnEpd := by
  unfold Obligations.InitOnEpd
  intro s rest hm hv hwf hb hs ho hbusy
  let u : State := { s with latch := ⟨0x01, 0, 0, 0, 0, 0, 0, 0⟩, mode := .resetting, pos := .resetLow }
  have he : exec .init s = .next u := by simp [exec, execInit, serve, hm, hv, u]
  have hpulse := reaches_resetPulse (s := u) ⟨rfl, hb, hs, ho⟩ rfl
  obtain ⟨t, hreach, hadv, hleft, hrst, hcs⟩ := reaches_epdInit (s := { u with
      mode := .initializing
      pos := .resetSettle
      pins := { s.pins with rst := .high }
      trace := s.trace ++ [.setRst .low, .delay s.cfg.resetLowMs, .setRst .high, .delay s.cfg.resetSettleMs]
      ops := s.ops + 2 }) s.cfg.epdInitSeq ⟨rfl, hb, hs, ho⟩ hv (epdInitSeq_all hwf) hbusy
  obtain ⟨n, hrun⟩ := hpulse.trans hreach
  exact ⟨n, u, finishRequest t, he, hrun, rfl, rfl, hadv.trace, hleft, hcs (.inr (initOpcodes_ne_nil hwf)), hrst,
    fun a => congrArg (Memory.read · a) hadv.fm⟩

end Sys2Proof.Machine
end

section
/-! SUPPORT. Frame writes as loops: what a window of bytes leaves in frame memory, the loop of an algorithm over its rows and
columns, the packing of eight pixels, and the transfer of one pixel byte. -/

namespace Sys2Proof.Machine

variable {s t : State}

/-! ### Memory after a list of stores -/

section Stores

variable {m ws : List Host.Cell} {a : Nat} {b : Byte}

theorem writeAll_cons (m : List Host.Cell) (w : Host.Cell) (ws : List Host.Cell) :
    writeAll m (w :: ws) = writeAll (Memory.write m w.1 w.2) ws := rfl

/-- A unit that no store is for keeps its byte. -/
theorem read_writeAll_other (h : ∀ w ∈ ws, w.1 ≠ a) : Memory.read (writeAll m ws) a = Memory.read m a := by
  induction ws generalizing m with
  | nil => rfl
  | cons w ws ih =>
    rw [writeAll_cons, ih fun w' hw' => h w' (List.mem_cons_of_mem _ hw')]
    exact memory_read_write_other m w.2 (h w List.mem_cons_self).symm

/-- A unit some store is for, each of them with the same byte, holds that byte. -/
theorem read_writeAll_same (hmem : (a, b) ∈ ws) (h : ∀ w ∈ ws, w.1 = a → w.2 = b) :
    Memory.read (writeAll m ws) a = some b := by
  induction ws generalizing m with
  | nil => cases hmem
  | cons w ws ih =>
    rw [writeAll_cons]
    by_cases hlater : (a, b) ∈ ws
    · exact ih hlater fun w' hw' => h w' (List.mem_cons_of_mem _ hw')
    · obtain rfl : (a, b) = w := (List.mem_cons.mp hmem).resolve_right hlater
      rw [read_writeAll_other fun w' hw' ha => hlater ?_]
      · exact memory_read_write_same m a b
      · rw [← ha, ← h w' (List.mem_cons_of_mem _ hw') ha]
        exact hw'

end Stores

/-- The stores of a window of bytes, row by row: `nv` rows from `v0` of `nu` units from `u0`, in a memory of `stride` units a
row (20_memory R89). -/
def windowWrites (stride u0 nu v0 nv : Nat) (byte : Nat → Nat → Byte) : List Host.Cell :=
  (List.range nv).flatMap fun v => (List.range nu).flatMap fun u =>
    [(stride * (v0 + v) + (u0 + u), byte (u0 + u) (v0 + v))]

section Window

variable {stride u0 nu v0 nv : Nat} {byte : Nat → Nat → Byte} {m : List Host.Cell}

theorem mem_windowWrites {w : Host.Cell} : w ∈ windowWrites stride u0 nu v0 nv byte ↔
    ∃ v < nv, ∃ u < nu, w = (stride * (v0 + v) + (u0 + u), byte (u0 + u) (v0 + v)) := by
  simp [windowWrites]

/-- Row and column of an address are its own. -/
theorem address_inj {u v u' v' : Nat} (hu : u < stride) (hu' : u' < stride)
    (h : stride * v + u = stride * v' + u') : v = v' ∧ u = u' := by
  have hpos : 0 < stride := Nat.zero_lt_of_lt hu
  have hdiv := congrArg (· / stride) h
  have hmod := congrArg (· % stride) h
  simp only [Nat.mul_add_div hpos, Nat.mul_add_mod, Nat.div_eq_of_lt hu, Nat.div_eq_of_lt hu', Nat.mod_eq_of_lt hu,
    Nat.mod_eq_of_lt hu', Nat.add_zero] at hdiv hmod
  exact ⟨hdiv, hmod⟩

/-- Each unit of the window holds its byte, and every other unit is as it was (20_memory R96). -/
theorem read_windowWrites (hfit : u0 + nu ≤ stride) {u v : Nat} (hu : u < stride) :
    Memory.read (writeAll m (windowWrites stride u0 nu v0 nv byte)) (stride * v + u) =
      if u0 ≤ u ∧ u < u0 + nu ∧ v0 ≤ v ∧ v < v0 + nv then some (byte u v) else Memory.read m (stride * v + u) := by
  split
  · next hin =>
    obtain ⟨hu0, hun, hv0, hvn⟩ := hin
    refine read_writeAll_same (mem_windowWrites.mpr ⟨v - v0, by omega, u - u0, by omega, ?_⟩) fun w hw ha => ?_
    · rw [Nat.add_sub_cancel' hu0, Nat.add_sub_cancel' hv0]
    · obtain ⟨v', -, u', hu', rfl⟩ := mem_windowWrites.mp hw
      obtain ⟨hv, hu⟩ := address_inj (by omega) hu ha
      rw [hv, hu]
  · next hout =>
    refine read_writeAll_other fun w hw ha => hout ?_
    obtain ⟨v', hv', u', hu', rfl⟩ := mem_windowWrites.mp hw
    obtain ⟨hv, hu⟩ := address_inj (by omega) hu ha
    omega

/-- Nothing beyond the window's last row is stored. -/
theorem read_windowWrites_beyond (hfit : u0 + nu ≤ stride) {a : Nat} (ha : stride * (v0 + nv) ≤ a) :
    Memory.read (writeAll m (windowWrites stride u0 nu v0 nv byte)) a = Memory.read m a := by
  refine read_writeAll_other fun w hw => ?_
  obtain ⟨v', hv', u', hu', rfl⟩ := mem_windowWrites.mp hw
  have hrow : stride * (v0 + v' + 1) ≤ stride * (v0 + nv) := Nat.mul_le_mul_left _ (by omega)
  rw [Nat.mul_add_one] at hrow
  dsimp only
  omega

end Window

/-! ### Loops -/

/-- A loop of `n` turns, each of which adds events that some choice of its own fixes: `turn i s` is the sequencer about to
begin turn `i` from `s`. -/
theorem reaches_loop_choosing {β : Type} {P : Nat → State → Prop} {turn : Nat → State → State} {Q : Nat → β → Prop}
    {evs : Nat → β → List Event} {ws : Nat → List Host.Cell} [Inhabited β] (n : Nat)
    (hturn : ∀ i < n, ∀ s, P i s → ∃ t b, P (i + 1) t ∧ Q i b ∧ Reaches (turn i s) (turn (i + 1) t) ∧
      Advanced s t (evs i b) (ws i)) (h : P 0 s) :
    ∃ t, ∃ p : Nat → β, P n t ∧ (∀ i < n, Q i (p i)) ∧ Reaches (turn 0 s) (turn n t) ∧
      Advanced s t ((List.range n).flatMap fun i => evs i (p i)) ((List.range n).flatMap ws) := by
  induction n with
  | zero => exact ⟨s, fun _ => default, h, nofun, Reaches.refl _, Advanced.refl s⟩
  | succ n ih =>
    obtain ⟨t, p, hP, hQ, hreach, hadv⟩ := ih fun i hi => hturn i (Nat.lt_succ_of_lt hi)
    obtain ⟨u, b, hP', hb, hreach', hadv'⟩ := hturn n (Nat.lt_succ_self n) t hP
    have hold {i : Nat} (hi : i < n) : Function.update p n b i = p i := Function.update_of_ne hi.ne _ _
    refine ⟨u, Function.update p n b, hP', fun i hi => ?_, hreach.trans hreach', ?_⟩
    · rcases Nat.lt_succ_iff_lt_or_eq.mp hi with hi | rfl
      · rw [hold hi]
        exact hQ i hi
      · rw [Function.update_self]
        exact hb
    · have hsame : ((List.range n).flatMap fun i => evs i (Function.update p n b i)) =
          (List.range n).flatMap fun i => evs i (p i) :=
        List.flatMap_congr fun i hi => by rw [hold (List.mem_range.mp hi)]
      simpa [List.range_succ, hsame] using hadv.trans hadv'

/-- A loop of `n` turns whose events are fixed beforehand. -/
theorem reaches_loop {P : Nat → State → Prop} {turn : Nat → State → State} {evs : Nat → List Event}
    {ws : Nat → List Host.Cell} (n : Nat)
    (hturn : ∀ i < n, ∀ s, P i s → ∃ t, P (i + 1) t ∧ Reaches (turn i s) (turn (i + 1) t) ∧
      Advanced s t (evs i) (ws i)) (h : P 0 s) :
    ∃ t, P n t ∧ Reaches (turn 0 s) (turn n t) ∧
      Advanced s t ((List.range n).flatMap evs) ((List.range n).flatMap ws) := by
  obtain ⟨t, -, hP, -, hreach, hadv⟩ := reaches_loop_choosing (β := Unit) (Q := fun _ _ => True)
    (evs := fun i _ => evs i) n
    (fun i hi s hs => let ⟨t, hP, hreach, hadv⟩ := hturn i hi s hs; ⟨t, (), hP, trivial, hreach, hadv⟩) h
  exact ⟨t, hP, hreach, hadv⟩

/-! ### Queries -/

/-- Every query of the pixel source reads `f`: it has that Color there, and it is the block's own or the host keeps it as it
was. -/
structure Shows (s : State) (f : Int → Int → Color) : Prop where
  pix : ∀ px py, pix s px py = some (f px py)
  kept : s.src = .constant ∨ s.changed = []

theorem Shows.query {f : Int → Int → Color} (h : Shows s f) (px py : Int) (k : Color → State → State) :
    query px py s k = k (f px py) s := by
  have hread : pixRead (f px py) s = (f px py, s) := by
    rcases h.kept with hs | hc
    · exact pixRead_own _ (.inl hs)
    · exact pixRead_stable hc
  simp only [Machine.query, h.pix, hread]

/-- What a stretch of a frame write adds leaves the source as it is. -/
theorem Shows.advanced {f : Int → Int → Color} {evs : List Event} {ws : List Host.Cell} (h : Shows s f)
    (ha : Advanced s t evs ws) : Shows t f where
  pix px py := by
    rw [← h.pix px py]
    simp only [Machine.pix, window, ha.src, ha.latch, ha.text, ha.tb, ha.ports, ha.cfg]
  kept := by
    rw [ha.src, ha.changed]
    exact h.kept

/-- A pixel function the host keeps as it was shows itself. -/
theorem shows_callback (hs : s.src = .callback) (hc : s.changed = []) : Shows s (pixelFnAt s.ports.f) where
  pix px py := by simp [Machine.pix, hs]
  kept := .inr hc

/-- The constant of CLEAR_FRAME shows its Color everywhere (40 R168). -/
theorem shows_constant (hs : s.src = .constant) : Shows s (fun _ _ => s.latch.c0) where
  pix px py := by simp [Machine.pix, hs]
  kept := .inl hs

/-! ### Packing -/

/-- The number in SR after `n` pixels `p 0`, `p 1`, ... are shifted in, before it is cut to a byte. -/
def shifted (p : Nat → Color) : Nat → Nat
  | 0 => 0
  | n + 1 => 2 * shifted p n + bitNat (p n)

theorem bitOf_eq (c : Color) : bitOf c = BitVec.ofNat 8 (bitNat c) := by
  unfold bitOf bitNat
  ext i hi
  rcases Nat.eq_zero_or_pos i with rfl | hpos
  · cases h : c.getLsbD 0 <;> simp_all [BitVec.getLsbD_eq_getElem]
  · have h1 : (1#8)[i] = false := by
      simp [BitVec.getElem_one, hpos.ne']
    cases c.getLsbD 0 <;> simp [h1]

/-- One pixel shifted in doubles the number and adds its bit (41_epaper R211; 43_wide_oled R301). -/
theorem shiftIn_ofNat (n : Nat) (c : Color) : shiftIn (BitVec.ofNat 8 n) c = BitVec.ofNat 8 (2 * n + bitNat c) := by
  have hbit : bitNat c < 2 := by
    unfold bitNat
    split <;> omega
  refine BitVec.eq_of_toNat_eq ?_
  have hshift : (n % 256) <<< 1 % 256 = (n % 128) <<< 1 := by
    simp only [Nat.shiftLeft_eq]
    omega
  rw [shiftIn, bitOf_eq, BitVec.toNat_or, BitVec.toNat_shiftLeft, BitVec.toNat_ofNat, BitVec.toNat_ofNat,
    BitVec.toNat_ofNat, hshift, Nat.mod_eq_of_lt (by omega : bitNat c < 2 ^ 8),
    ← Nat.shiftLeft_add_eq_or_of_lt (by omega : bitNat c < 2 ^ 1), Nat.shiftLeft_eq]
  omega

/-- Eight pixels from left to right pack into the EPD data byte (41_epaper R215). -/
theorem epdByte_eq_shifted (f : Int → Int → Color) (x j : Int) :
    BitVec.ofNat 8 (shifted (fun k => f (x + k) j) 8) = epdByte f x j := by
  unfold epdByte
  congr 1
  simp only [shifted, List.range_succ, List.range_zero, List.nil_append, List.map_append, List.map_cons, List.map_nil,
    List.sum_append, List.sum_cons, List.sum_nil]
  omega

/-- Eight pixels from bottom to top pack into the WOLED data byte (43_wide_oled R304). -/
theorem woledByte_eq_shifted (f : Int → Int → Color) (c p : Int) :
    BitVec.ofNat 8 (shifted (fun k => f c (8 * p + ((7 - k : Nat) : Int))) 8) = woledByte f c p := by
  unfold woledByte
  congr 1
  simp only [shifted, List.range_succ, List.range_zero, List.nil_append, List.map_append, List.map_cons, List.map_nil,
    List.sum_append, List.sum_cons, List.sum_nil, Nat.reduceSub]
  omega

/-- The nibble packer as a sum (42_gray_oled R265). -/
theorem packNibbles_eq (l r : Color) : packNibbles l r = BitVec.ofNat 8 (l.toNat % 16 * 16 + r.toNat % 16) := by
  have hleft : l.toNat <<< 4 % 256 = (l.toNat % 16) <<< 4 := by
    simp only [Nat.shiftLeft_eq]
    omega
  have hright : r.toNat &&& 15 = r.toNat % 16 := Nat.and_two_pow_sub_one_eq_mod _ 4
  refine BitVec.eq_of_toNat_eq ?_
  rw [packNibbles, BitVec.toNat_or, BitVec.toNat_shiftLeft, BitVec.toNat_and, BitVec.toNat_ofNat, hleft,
    show (0xF : Byte).toNat = 15 from rfl, hright,
    ← Nat.shiftLeft_add_eq_or_of_lt (by omega : r.toNat % 16 < 2 ^ 4), Nat.shiftLeft_eq]
  omega

/-! ### One pixel byte -/

/-- The address of a unit by its column and row. -/
theorem fmAddr_natCast {v : Variant} {a b : Nat} (ha : a < (fmExtent v).1) (hb : b < (fmExtent v).2) :
    fmAddr v ((a : Int), (b : Int)) = some ((fmExtent v).1 * b + a) := by
  rw [fmAddr, if_pos (by dsimp only; omega), Int.toNat_natCast, Int.toNat_natCast, Nat.mul_comm]

/-- A data-level byte outside INIT is a pixel byte (30_encoding R122). -/
theorem decode_pixelData (hm : s.mode ≠ .initializing) (b : Byte) :
    ∃ i ∈ [.epdPixelData b, .goledPixelData b, .woledPixelData b], decode ⟨wireSpace s, ⟨[], [b]⟩⟩ = .ok i := by
  cases hv : s.cfg.variant <;> simp [wireSpace, hv, hm, decode, decodeEpd, decodeGoled, decodeWoled]

/-- The state after the last event of a pixel byte for the unit `a`, after which the sequencer goes on at `p`. -/
def sentPixel (b : Byte) (a : Nat) (p : Pos) (s : State) : State := { afterPixel b a s with pos := p }

theorem Between.sentPixel {m : Mode} (h : Between m s) (b : Byte) (a : Nat) (p : Pos) : Between m (sentPixel b a p s) :=
  ⟨h.mode, rfl, rfl, h.oracle⟩

/-- A pixel byte adds the events of its transaction, and is stored. -/
theorem Advanced.sentPixel (b : Byte) (a : Nat) (p : Pos) (s : State) :
    Advanced s (sentPixel b a p s) (dataEvents s.cfg.framing [b]) [(a, b)] :=
  ⟨rfl, rfl, rfl, rfl, rfl, rfl, rfl, rfl, rfl, rfl⟩

/-- A pixel byte due in a frame write, from its first event to its last. -/
theorem Between.reaches_pixel (h : Between .writing s) {b : Byte} {a : Nat} (p : Pos) (ha : pixelAddr s = some a) :
    Reaches (standAt ⟨[], [b]⟩ p s) (resume (Machine.sentPixel b a p s)) := by
  obtain ⟨i, hi, hd⟩ := decode_pixelData (s := standAt ⟨[], [b]⟩ p s) (by simp [h.mode]) b
  obtain ⟨d, he, haddr⟩ := exec_pixelData_eq_issue (s := standAt ⟨[], [b]⟩ p s) hi (wireVariant_of_decode hd)
  have hstep := (step_send (s := standAt ⟨[], [b]⟩ p s) (by exact h.live) h.bus rfl hd).trans
    (he.trans (issue_pixel_starts (by exact h.live) h.bus (by exact h.quiet 1)))
  exact (Reaches.of_step hstep).trans
    ⟨3, run_pixelStarted (by exact h.live) (by exact h.quiet 4) (haddr.symm.trans ha)⟩

end Sys2Proof.Machine
end

section
/-! SUPPORT. The frame write of EPD from its first command to its last byte, over any pixel source: the events it adds and
the bytes it stores (41_epaper R211). -/

namespace Sys2Proof.Machine

variable {s t : State} {c : Config} {f : Int → Int → Color} {queried : Prop}

/-- In a row of an EPD write with window registers `w`: everything the rest of the row depends on. Its pixel source matters
only where a pixel is `queried`: a degenerate window has no query. -/
structure EpdRow (c : Config) (f : Int → Int → Color) (queried : Prop) (w : EpdWork) (busy : List Level) (s : State) :
    Prop where
  between : Between .writing s
  cfg : s.cfg = c
  variant : c.variant = .epd
  shows : queried → Shows s f
  epd : ∃ g k, s.epd = { w with g := g, k := k }
  busyIn : s.busyIn = busy

/-- Pixel K of a group, other than the eighth (41_epaper R211). -/
theorem step_epdPixel_next (h : Between .writing s) (hs : Shows s f) (hp : s.pos = .epdPixel) (hk : s.epd.k < 7) :
    step s = .next { s with
      sr := shiftIn s.sr (f (s.epd.xa + 8 * s.epd.g + s.epd.k) s.epd.j)
      epd := { s.epd with k := s.epd.k + 1 } } := by
  have hread : seqStep s = epdReadPixel s := by rw [seqStep, hp]
  rw [h.step (by decide) (by simp [hp]), hread]
  simp only [epdReadPixel, hs.query, if_pos hk]

/-- The eighth pixel of a group, after which its byte is due (41_epaper R211, R215). -/
theorem step_epdPixel_last (h : Between .writing s) (hs : Shows s f) (hp : s.pos = .epdPixel) (hk : s.epd.k = 7) :
    step s = .next (standAt ⟨[], [shiftIn s.sr (f (s.epd.xa + 8 * s.epd.g + 7) s.epd.j)]⟩ .epdNextGroup
      { s with sr := shiftIn s.sr (f (s.epd.xa + 8 * s.epd.g + 7) s.epd.j) }) := by
  have hread : seqStep s = epdReadPixel s := by rw [seqStep, hp]
  rw [h.step (by decide) (by simp [hp]), hread]
  simp only [epdReadPixel, hs.query, hk, Nat.lt_irrefl, if_false]
  rfl

/-- After `n` queries of a group, none of them the eighth, SR holds their pixels. -/
def epdPacked (n : Nat) (f : Int → Int → Color) (s : State) : State :=
  { s with
    sr := BitVec.ofNat 8 (shifted (fun k => f (s.epd.xa + 8 * s.epd.g + k) s.epd.j) n)
    epd := { s.epd with k := n } }

/-- The eight queries of a group, and its byte due (41_epaper R215). -/
theorem reaches_epdByte (h : Between .writing s) (hs : Shows s f) (hp : s.pos = .epdPixel) (hsr : s.sr = 0)
    (hk : s.epd.k = 0) :
    Reaches s (standAt ⟨[], [epdByte f (s.epd.xa + 8 * s.epd.g) s.epd.j]⟩ .epdNextGroup
      { s with sr := epdByte f (s.epd.xa + 8 * s.epd.g) s.epd.j, epd := { s.epd with k := 7 } }) := by
  have hbt (n : Nat) : Between .writing (epdPacked n f s) := ⟨h.mode, h.bus, h.send, h.oracle⟩
  have hsh (n : Nat) : Shows (epdPacked n f s) f := ⟨hs.pix, hs.kept⟩
  have hpre (n : Nat) (hn : n ≤ 7) : Reaches s (epdPacked n f s) := by
    induction n with
    | zero =>
      have hsame : epdPacked 0 f s = s := by
        rw [epdPacked, ← hk, show BitVec.ofNat 8 (shifted _ s.epd.k) = s.sr by rw [hk, hsr]; rfl]
      rw [hsame]
      exact Reaches.refl s
    | succ n ih =>
      refine (ih (by omega)).trans (Reaches.of_step ((step_epdPixel_next (hbt n) (hsh n) hp hn).trans (congrArg _ ?_)))
      simp only [epdPacked, shiftIn_ofNat, shifted]
  refine (hpre 7 le_rfl).trans (Reaches.of_step ((step_epdPixel_last (hbt 7) (hsh 7) hp rfl).trans (congrArg _ ?_)))
  simp only [epdPacked, shiftIn_ofNat, ← epdByte_eq_shifted]
  rfl

/-- One group of a row: its byte is sent, for its unit (41_epaper R211, R215, R216). -/
theorem EpdRow.reaches_group {w : EpdWork} {busy : List Level} {b0 n j g : Nat} (h : EpdRow c f queried w busy s)
    (hq : queried) (hxa : w.xa = 8 * b0) (hn : epdGroupCount w = n) (hj : w.j = j) (hg : g < n)
    (hb : b0 + n ≤ 25) (hrow : j < 200) :
    ∃ t, EpdRow c f queried w busy t ∧ Reaches (epdGroupOrRow g s) (epdGroupOrRow (g + 1 : Nat) t) ∧
      Advanced s t (dataEvents c.framing [epdByte f (8 * (b0 + g : Nat)) j])
        [(25 * j + (b0 + g), epdByte f (8 * (b0 + g : Nat)) j)] := by
  obtain ⟨hbt, rfl, hv, hs, ⟨g', k', he⟩, hbusy⟩ := h
  replace hs := hs hq
  have hcount : epdGroupCount s.epd = n := by rw [he]; exact hn
  let u : State := { s with sr := 0, epd := { w with g := g, k := 0 }, pos := .epdPixel }
  have hstart : epdGroupOrRow g s = u := by
    rw [epdGroupOrRow, hcount, if_pos (by omega), he]
  have hval : epdByte f (u.epd.xa + 8 * u.epd.g) u.epd.j = epdByte f (8 * (b0 + g : Nat)) j := by
    rw [show u.epd.j = j from hj, show u.epd.xa + 8 * u.epd.g = 8 * (b0 + g : Nat) by simp only [u]; omega]
  have hbyte := reaches_epdByte (s := u) (f := f) ⟨hbt.mode, hbt.bus, hbt.send, hbt.oracle⟩ ⟨hs.pix, hs.kept⟩ rfl rfl rfl
  rw [hval] at hbyte
  let v : State := { u with sr := epdByte f (8 * (b0 + g : Nat)) j, epd := { w with g := g, k := 7 } }
  have haddr : pixelAddr v = some (25 * j + (b0 + g)) := by
    have hdest : epdPixelDest v.epd = (((b0 + g : Nat) : Int), (j : Int)) := by
      rw [epdPixelDest, show v.epd.j = j from hj, show v.epd.xa / 8 + v.epd.g = (b0 + g : Nat) by simp only [v]; omega]
    have hv' : v.cfg.variant = .epd := hv
    rw [pixelAddr, hv', hdest]
    exact fmAddr_natCast (v := .epd) (by simp only [fmExtent]; omega) (by simp only [fmExtent]; omega)
  have hpix := Between.reaches_pixel (s := v) (b := epdByte f (8 * (b0 + g : Nat)) j)
    ⟨hbt.mode, hbt.bus, hbt.send, hbt.oracle⟩ .epdNextGroup haddr
  refine ⟨sentPixel (epdByte f (8 * (b0 + g : Nat)) j) (25 * j + (b0 + g)) .epdNextGroup v,
    ⟨⟨hbt.mode, rfl, rfl, hbt.oracle⟩, rfl, hv, fun _ => ⟨hs.pix, hs.kept⟩, ⟨g, 7, rfl⟩, hbusy⟩, ?_,
    ⟨rfl, rfl, rfl, rfl, rfl, rfl, rfl, rfl, rfl, rfl⟩⟩
  rw [hstart]
  exact hbyte.trans hpix

/-- A payload of no byte has no event (00_scope R13). -/
@[simp] theorem dataEvents_nil (fr : Framing) : dataEvents fr [] = [] := by
  cases fr <;> rfl

/-- The events of a row before its first data byte: its two pointers, the wait that finds busy clear, and `0x24` (41_epaper
R211, R214). -/
def epdRowHead (fr : Framing) (a : Byte) (j : Nat) : List Event :=
  cmdEvents [0x4E] ++ dataEvents fr [a] ++ cmdEvents [0x4F] ++ dataEvents fr [BitVec.ofNat 8 j, 0] ++ [.busySample false]
    ++ cmdEvents [0x24]

/-- A row from its X pointer to its first group (41_epaper R211). -/
theorem EpdRow.reaches_head {w : EpdWork} {busy : List Level} {b0 j : Nat}
    (h : EpdRow c f queried w (busyClearLevel c :: busy) s) (hxa : w.xa = 8 * b0) (hye : (j : Int) ≤ w.ye) (hj : j < 200) :
    ∃ t a, EpdRow c f queried { w with j := j } busy t ∧ (b0 ≤ 255 → a.toNat = b0) ∧
      Reaches (epdRowOrEnd j s) (epdGroupOrRow 0 t) ∧ Advanced s t (epdRowHead c.framing a j) [] := by
  obtain ⟨hbt, rfl, hv, hs, ⟨g', k', he⟩, hbusy⟩ := h
  have hxa' : s.epd.xa / 8 = b0 := by rw [he]; simp only; omega
  have hcmd (m : Mode) (u : State) (hu : Between m u) (hc : u.cfg = s.cfg) (op : Byte) (payload : List Byte) (p : Pos)
      (hop : epdOpcodes.contains op = true) (hm : m ≠ .halted) :
      Reaches (standAt ⟨[op], payload⟩ p u) (resume (sent ⟨[op], payload⟩ p u)) := by
    refine hu.reaches_command p ?_ hm
    rw [wireSpace, hc, hv]
    exact isCommand_epd hop payload
  let a := (enc8 s.draws (s.epd.xa / 8)).1
  let s1 : State := { s with epd := { s.epd with j := j }, draws := (enc8 s.draws (s.epd.xa / 8)).2 }
  let s2 := sent ⟨[0x4E], [a]⟩ .epdYPointer s1
  let s3 : State := { sent ⟨[0x4F], [BitVec.ofNat 8 j, 0]⟩ .epdPointerSet s2 with
    mode := .waitPointer, pos := .sample .pointer }
  let s4 : State := { s3 with
    busyIn := busy, trace := s3.trace ++ [.busySample false], ops := s3.ops + 1, mode := .writing }
  have h1 : epdRowOrEnd j s = standAt ⟨[0x4E], [a]⟩ .epdYPointer s1 := by
    rw [epdRowOrEnd, if_pos (by rw [he]; exact hye)]
    rfl
  have h2 : resume s2 = standAt ⟨[0x4F], [BitVec.ofNat 8 j, 0]⟩ .epdPointerSet s2 := by
    have henc : enc16 s2.draws s2.epd.j = (BitVec.ofNat 8 j, 0, s2.draws) := by
      rw [show s2.epd.j = (j : Int) from rfl, enc16_fits (by omega) (by omega), BitVec.ofInt_natCast,
        show ((j : Int) / 256) = 0 by omega]
      rfl
    change standAtEpdHalf 0x4F s2.epd.j .epdPointerSet s2 = _
    rw [standAtEpdHalf, henc]
  have h3 : step s3 = .next (standAt ⟨[0x24], []⟩ .epdGroups s4) :=
    step_sample_clear (s := s3) nofun rfl rfl rfl (quiet_of_oracle (by exact hbt.oracle) 1) hbusy
  refine ⟨sent ⟨[0x24], []⟩ .epdGroups s4, a, ⟨⟨rfl, rfl, rfl, hbt.oracle⟩, rfl, hv, fun hn => ⟨(hs hn).pix, (hs hn).kept⟩,
    ⟨g', k', ?_⟩, rfl⟩, fun hb => ?_, ?_, ⟨rfl, rfl, rfl, rfl, rfl, rfl, rfl, rfl, ?_, rfl⟩⟩
  · change { s.epd with j := (j : Int) } = _
    rw [he]
  · have henc := (enc8_toNat (n := s.draws) (v := s.epd.xa / 8) (by omega) (by omega)).1
    rw [hxa'] at henc
    exact Int.ofNat_inj.mp (by rw [← henc, ← hxa'])
  · rw [h1]
    refine (hcmd .writing s1 ⟨hbt.mode, hbt.bus, hbt.send, hbt.oracle⟩ rfl _ _ _ (by decide) (by decide)).trans ?_
    refine (h2 ▸ hcmd .writing s2 ⟨hbt.mode, rfl, rfl, hbt.oracle⟩ rfl _ _ _ (by decide) (by decide)).trans ?_
    exact (Reaches.of_step h3).trans
      (hcmd .writing s4 ⟨rfl, rfl, rfl, hbt.oracle⟩ rfl 0x24 [] .epdGroups (by decide) (by decide))
  · simp [sent, afterWord, s4, s3, s2, s1, epdRowHead, wordEvents]

/-- The events of a row of `n` groups from byte column `b0` (41_epaper R211, R214, R215). -/
def epdRowEvents (fr : Framing) (f : Int → Int → Color) (b0 n j : Nat) (a : Byte) : List Event :=
  epdRowHead fr a j ++ (List.range n).flatMap fun g => dataEvents fr [epdByte f (8 * (b0 + g : Nat)) j]

/-- One row: its head, and each of its groups (41_epaper R211). -/
theorem EpdRow.reaches_row {w : EpdWork} {busy : List Level} {b0 n j : Nat}
    (h : EpdRow c f queried w (busyClearLevel c :: busy) s) (hxa : w.xa = 8 * b0) (hn : epdGroupCount w = n)
    (hq : 0 < n → queried) (hb : n = 0 ∨ b0 + n ≤ 25) (hye : (j : Int) ≤ w.ye) (hj : j < 200) :
    ∃ t a, EpdRow c f queried { w with j := j } busy t ∧ (b0 ≤ 255 → a.toNat = b0) ∧
      Reaches (epdRowOrEnd j s) (epdRowOrEnd (j + 1 : Nat) t) ∧
      Advanced s t (epdRowEvents c.framing f b0 n j a)
        ((List.range n).flatMap fun g => [(25 * j + (b0 + g), epdByte f (8 * (b0 + g : Nat)) j)]) := by
  obtain ⟨u, a, hu, ha, hreach, hadv⟩ := h.reaches_head hxa hye hj
  obtain ⟨t, ht, hreach', hadv'⟩ := reaches_loop
    (P := fun _ u => EpdRow c f queried { w with j := j } busy u) (turn := fun g => epdGroupOrRow g)
    (evs := fun g => dataEvents c.framing [epdByte f (8 * (b0 + g : Nat)) j])
    (ws := fun g => [(25 * j + (b0 + g), epdByte f (8 * (b0 + g : Nat)) j)]) n
    (fun g hg u hu => EpdRow.reaches_group (w := { w with j := j }) hu (hq (by omega)) hxa hn rfl hg (by omega) hj) hu
  refine ⟨t, a, ht, ha, hreach.trans ?_, hadv.trans hadv'⟩
  obtain ⟨g', k', he⟩ := ht.epd
  have hend : epdGroupOrRow n t = epdRowOrEnd (j + 1 : Nat) t := by
    rw [epdGroupOrRow, if_neg (by rw [he]; exact not_lt.mpr hn.le), he]
    rfl
  exact hend ▸ hreach'

/-- The window registers after alignment and clipping (41_epaper R211, R212). -/
theorem epdClip_eq (x y w h : Nat) (e : EpdWork) :
    (epdClip ⟨x, y, w, h⟩ e).xa = 8 * (x / 8 : Nat) ∧
    (epdClip ⟨x, y, w, h⟩ e).xe = min (8 * (x / 8) + 8 * (w / 8)) 200 - (1 : Int) ∧
    (epdClip ⟨x, y, w, h⟩ e).ye = min (y + h) 200 - (1 : Int) ∧
    epdGroupCount (epdClip ⟨x, y, w, h⟩ e) = min (w / 8) (25 - x / 8) := by
  simp only [epdClip, epdGroupCount]
  refine ⟨by omega, ?_, ?_, ?_⟩ <;> split_ifs <;> omega

/-- A whole EPD write of a window `⟨x, y, w, h⟩`, degenerate or not, busy clear at each row: its two window commands, with
ends that are free draws only where they do not fit, and its rows (41_epaper R211, R214 to R217). -/
theorem reaches_epdWrite {x y w h : Nat} {rest : List Level} (hv : s.cfg.variant = .epd) (hb : s.bus = [])
    (hs : s.send = none) (ho : s.oracle = none) (hwin : window s = ⟨x, y, w, h⟩) (hy : y < 65536)
    (hshows : 0 < min (w / 8) (25 - x / 8) → 0 < min h (200 - y) → Shows s f)
    (hbusy : s.busyIn = List.replicate (min h (200 - y)) (busyClearLevel s.cfg) ++ rest) :
    ∃ (t : State) (a b lo hi : Byte) (p : Nat → Byte),
      Reaches (epdBegin ⟨x, y, w, h⟩ s) (writeDone t) ∧ t.bus = [] ∧ t.send = none ∧ t.busyIn = rest ∧
      Advanced s t
        (cmdEvents [0x44] ++ dataEvents s.cfg.framing [a, b] ++ cmdEvents [0x45]
          ++ dataEvents s.cfg.framing [BitVec.ofNat 8 y, BitVec.ofNat 8 (y / 256), lo, hi]
          ++ (List.range (min h (200 - y))).flatMap fun r =>
            epdRowEvents s.cfg.framing f (x / 8) (min (w / 8) (25 - x / 8)) (y + r) (p r))
        (windowWrites 25 (x / 8) (min (w / 8) (25 - x / 8)) y (min h (200 - y)) fun bc row => epdByte f (8 * bc) row) ∧
      (x / 8 ≤ 255 → a.toNat = x / 8 ∧ ∀ r < min h (200 - y), (p r).toNat = x / 8) ∧
      (0 < min (8 * (x / 8) + 8 * (w / 8)) 200 → b.toNat = (min (8 * (x / 8) + 8 * (w / 8)) 200 - 1) / 8) ∧
      (0 < min (y + h) 200 → lo.toNat = min (y + h) 200 - 1 ∧ hi = 0) := by
  obtain ⟨hxa, hxe, hye, hcount⟩ := epdClip_eq x y w h s.epd
  set e := epdClip ⟨x, y, w, h⟩ s.epd with he
  set n := min (w / 8) (25 - x / 8)
  set rows := min h (200 - y) with hrows
  let a := enc8 s.draws (e.xa / 8)
  let b := enc8 a.2 (e.xe / 8)
  let s1 : State := { s with mode := .writing, epd := e, draws := b.2 }
  let s2 := sent ⟨[0x44], [a.1, b.1]⟩ .epdYWindow s1
  let ends := enc16 s2.draws e.ye
  let s3 : State := { s2 with draws := ends.2.2 }
  let s4 := sent ⟨[0x45], [BitVec.ofNat 8 y, BitVec.ofNat 8 (y / 256), ends.1, ends.2.1]⟩ .epdRows s3
  have h1 : epdBegin ⟨x, y, w, h⟩ s = standAt ⟨[0x44], [a.1, b.1]⟩ .epdYWindow s1 := rfl
  have h2 : resume s2 =
      standAt ⟨[0x45], [BitVec.ofNat 8 y, BitVec.ofNat 8 (y / 256), ends.1, ends.2.1]⟩ .epdRows s3 := by
    have hw2 : (window s2).y = y := congrArg Window.y hwin
    change standAtEpdRows 0x45 (window s2).y e.ye .epdRows s2 = _
    rw [hw2, standAtEpdRows, enc16_fits (by omega) (by omega), BitVec.ofInt_natCast,
      show ((y : Int) / 256) = (y / 256 : Nat) by omega, BitVec.ofInt_natCast]
  have h3 : resume s4 = epdRowOrEnd (y + 0 : Nat) s4 := by
    have hw4 : (window s4).y = y := congrArg Window.y hwin
    change epdRowOrEnd (window s4).y s4 = _
    rw [hw4]
    rfl
  have hcmd (u : State) (hu : Between .writing u) (hc : u.cfg = s.cfg) (op : Byte) (payload : List Byte) (p : Pos)
      (hop : epdOpcodes.contains op = true) :
      Reaches (standAt ⟨[op], payload⟩ p u) (resume (sent ⟨[op], payload⟩ p u)) := by
    refine hu.reaches_command p ?_
    rw [wireSpace, hc, hv]
    exact isCommand_epd hop payload
  have hshows4 (hn : 0 < n ∧ 0 < rows) : Shows s4 f := ⟨(hshows hn.1 hn.2).pix, (hshows hn.1 hn.2).kept⟩
  obtain ⟨t, p, ⟨j', ht⟩, hp, hreach, hadv⟩ := reaches_loop_choosing (β := Byte) (s := s4)
    (P := fun r u => ∃ j : Int, EpdRow s.cfg f (0 < n ∧ 0 < rows) { e with j := j }
      (List.replicate (rows - r) (busyClearLevel s.cfg) ++ rest) u)
    (turn := fun r => epdRowOrEnd (y + r : Nat)) (Q := fun _ a => x / 8 ≤ 255 → a.toNat = x / 8)
    (evs := fun r => epdRowEvents s.cfg.framing f (x / 8) n (y + r))
    (ws := fun r => (List.range n).flatMap fun g =>
      [(25 * (y + r) + (x / 8 + g), epdByte f (8 * (x / 8 + g : Nat)) (y + r : Nat))]) rows
    (fun r hr u ⟨j, hu⟩ => by
      rw [show rows - r = rows - (r + 1) + 1 by omega, List.replicate_succ, List.cons_append] at hu
      obtain ⟨t, a, ht, ha, hreach, hadv⟩ := EpdRow.reaches_row hu (b0 := x / 8) (n := n) (j := y + r) hxa
        (by rw [← hcount]; rfl) (fun hn => ⟨hn, by omega⟩) (by omega) (by simp only [hye]; omega) (by omega)
      exact ⟨t, a, ⟨_, ht⟩, ha, hreach, hadv⟩)
    ⟨e.j, ⟨rfl, rfl, rfl, ho⟩, rfl, hv, hshows4, ⟨e.g, e.k, rfl⟩, hbusy⟩
  have hend : epdRowOrEnd (y + rows : Nat) t = writeDone t := by
    obtain ⟨g', k', ht'⟩ := ht.epd
    rw [epdRowOrEnd, ht', if_neg (by simp only [hye]; omega)]
  refine ⟨t, a.1, b.1, ends.1, ends.2.1, p, ?_, ht.between.bus, ht.between.send, ?_, ?_, ?_, ?_, ?_⟩
  · rw [h1, ← hend]
    refine (hcmd s1 ⟨rfl, hb, hs, ho⟩ rfl _ _ _ (by decide)).trans ?_
    refine (h2 ▸ hcmd s3 ⟨rfl, rfl, rfl, ho⟩ rfl _ _ _ (by decide)).trans ?_
    exact h3 ▸ hreach
  · rw [ht.busyIn, Nat.sub_self]
    rfl
  · refine hadv.after (s := s) (ws := []) ⟨rfl, rfl, rfl, rfl, rfl, rfl, rfl, rfl, ?_, rfl⟩
    simp [s4, s3, s2, s1, sent, afterWord, wordEvents]
  · intro hx
    have ha : (a.1.toNat : Int) = e.xa / 8 := (enc8_toNat (by omega) (by omega)).1
    exact ⟨by omega, fun r hr => hp r hr hx⟩
  · intro hx
    have hb : (b.1.toNat : Int) = e.xe / 8 := (enc8_toNat (by omega) (by omega)).1
    omega
  · intro hpos
    have hfit := enc16_toNat (n := s2.draws) (v := e.ye) (by omega) (by omega)
    obtain ⟨hlo, hhi, -⟩ := hfit
    change (ends.1.toNat : Int) = _ at hlo
    change (ends.2.1.toNat : Int) = _ at hhi
    exact ⟨by omega, BitVec.eq_of_toNat_eq (show ends.2.1.toNat = 0 by omega)⟩

end Sys2Proof.Machine
end

section
/-! SUPPORT. The two window commands of an OLED frame write, and the frame write of GOLED from its first command to its last
byte, over any pixel source (42_gray_oled R262). -/

namespace Sys2Proof.Machine

variable {s t : State} {c : Config} {f : Int → Int → Color}

/-! ### The two window commands -/

/-- Two commands one after the other, the operands of the second chosen after the first: as many steps as they have
events. -/
theorem run_twoCommands {m : Mode} {w v : WireWord} {p q : Pos} {n : Nat} (h : Between m s)
    (hw : IsCommand (wireSpace s) w) (hnext : resume (sent w p s) = standAt v q { sent w p s with draws := n })
    (hv : IsCommand (wireSpace s) v) (hm : m ≠ .halted := by decide) :
    Sys2Proof.core.run ((wordEvents s.cfg.framing w).length + (wordEvents s.cfg.framing v).length) (standAt w p s) =
      .next (resume (sent v q { sent w p s with draws := n })) := by
  have h1 := run_standAt p (h.live hm) h.bus hw (h.quiet _)
  have hbt := h.sent w p
  rw [hnext] at h1
  exact (run_add _ h1).trans (run_standAt (s := { sent w p s with draws := n }) q (hbt.live hm) rfl hv (hbt.quiet _))

/-! ### GOLED -/

/-- The two window commands of GOLED, for a window that passes the guard (42_gray_oled R262, R270, R271). -/
theorem run_goledWindow {x y w h : Nat} (hv : s.cfg.variant = .goled) (hb : s.bus = []) (hs : s.send = none)
    (ho : s.oracle = none) (hwin : window s = ⟨x, y, w, h⟩) (hg : x < 128 ∧ y ≤ 128 ∧ 2 ≤ w ∧ 0 < h) :
    ∃ t, Sys2Proof.core.run 12 (goledBegin ⟨x, y, w, h⟩ s) = .next (goledRowOrEnd y t) ∧ Between .writing t ∧
      t.goled = goledClip ⟨x, y, w, h⟩ s.goled ∧
      Advanced s t (cmdEvents [0x15, BitVec.ofNat 8 (x / 2), BitVec.ofNat 8 (min (x / 2 + w / 2 - 1) 63)] ++
        cmdEvents [0x75, BitVec.ofNat 8 y, BitVec.ofNat 8 (min (y + h - 1) 127)]) [] := by
  let s1 : State := { s with mode := .writing, goled := goledClip ⟨x, y, w, h⟩ s.goled }
  let cols : WireWord := ⟨[0x15, BitVec.ofNat 8 (x / 2), BitVec.ofNat 8 (min (x / 2 + w / 2 - 1) 63)], []⟩
  let rows : WireWord := ⟨[0x75, BitVec.ofNat 8 y, BitVec.ofNat 8 (min (y + h - 1) 127)], []⟩
  let s2 := sent cols .goledRowWindow s1
  have h1 : goledBegin ⟨x, y, w, h⟩ s = standAt cols .goledRowWindow s1 := by
    rw [goledBegin, standAtWindow_fits _ (by simp only [goledClip]; omega) (by simp only [goledClip]; omega)
      (by simp only [goledClip]; omega) (by simp only [goledClip]; omega),
      show (goledClip ⟨x, y, w, h⟩ s.goled).xc = (x / 2 : Nat) by simp only [goledClip]; omega,
      show (goledClip ⟨x, y, w, h⟩ s.goled).ce = (min (x / 2 + w / 2 - 1) 63 : Nat) by simp only [goledClip]; omega,
      BitVec.ofInt_natCast, BitVec.ofInt_natCast]
  have h2 : resume s2 = standAt rows .goledRows { s2 with draws := s.draws } := by
    have hy : (window s2).y = (y : Int) := congrArg Window.y hwin
    have hre : s2.goled.re = (min (y + h - 1) 127 : Nat) := by
      change (goledClip ⟨x, y, w, h⟩ s.goled).re = _
      simp only [goledClip]
      omega
    change standAtWindow 0x75 (window s2).y s2.goled.re .goledRows s2 = _
    rw [hy, hre, standAtWindow_fits _ (by omega) (by omega) (by omega) (by omega), BitVec.ofInt_natCast,
      BitVec.ofInt_natCast]
    rfl
  have hsp : wireSpace s1 = .goled := by
    simp only [wireSpace, s1, hv]
    rfl
  have hrun := run_twoCommands (s := s1) (m := .writing) ⟨rfl, hb, hs, ho⟩ (hsp ▸ isCommand_goled (.inl rfl) _ _) h2
    (hsp ▸ isCommand_goled (.inr rfl) _ _)
  rw [wordEvents_cmd, wordEvents_cmd, cmdEvents_length, cmdEvents_length] at hrun
  let t := sent rows .goledRows { s2 with draws := s.draws }
  have hy : (window t).y = (y : Int) := congrArg Window.y hwin
  refine ⟨t, ?_, ⟨rfl, rfl, rfl, ho⟩, rfl, ⟨rfl, rfl, rfl, rfl, rfl, rfl, rfl, rfl, ?_, rfl⟩⟩
  · rw [h1, ← hy]
    exact hrun
  · simp [t, s2, s1, sent, afterWord, cols, rows]

/-- GOLED: pair `cp` of a row, at its left query with SR cleared, or the next row (42_gray_oled R262). -/
def goledPairOrRow (cp : Int) (s : State) : State :=
  if cp ≤ s.goled.ce then { s with sr := 0, goled := { s.goled with c := cp }, pos := .goledLeft }
  else goledRowOrEnd (s.goled.r + 1) s

theorem goledNext_eq (s : State) : goledNext s = goledPairOrRow (s.goled.c + 1) s := rfl

/-- A row of a window that has pairs begins at its first one. -/
theorem goledRowOrEnd_eq {r : Int} (hr : r ≤ s.goled.re) (hc : s.goled.xc ≤ s.goled.ce) :
    goledRowOrEnd r s = goledPairOrRow s.goled.xc { s with goled := { s.goled with r := r } } := by
  rw [goledRowOrEnd, if_pos ⟨hr, hc⟩, goledPairOrRow, if_pos hc]

theorem goledRowOrEnd_end {r : Int} (hr : s.goled.re < r) : goledRowOrEnd r s = writeDone s :=
  if_neg fun hin => not_lt.mpr hin.1 hr

/-- In a row of a GOLED write with window registers `w`: everything the rest of the row depends on. -/
structure GoledRow (c : Config) (f : Int → Int → Color) (w : GoledWork) (s : State) : Prop where
  between : Between .writing s
  cfg : s.cfg = c
  variant : c.variant = .goled
  shows : Shows s f
  goled : ∃ cp l rt, s.goled = { w with c := cp, l := l, rt := rt }

/-- The two queries of a pair, and its byte due (42_gray_oled R262, R265). -/
theorem reaches_goledByte (h : Between .writing s) (hs : Shows s f) (hp : s.pos = .goledLeft) :
    Reaches s (standAt ⟨[], [goledByte f s.goled.c s.goled.r]⟩ .goledNextPair
      { s with
        sr := goledByte f s.goled.c s.goled.r
        goled := { s.goled with l := f (2 * s.goled.c) s.goled.r, rt := f (2 * s.goled.c + 1) s.goled.r } }) := by
  let u : State := { s with goled := { s.goled with l := f (2 * s.goled.c) s.goled.r }, pos := .goledRight }
  have hleft : step s = .next u := by
    have hread : seqStep s = goledReadLeft s := by rw [seqStep, hp]
    rw [h.step (by decide) (by simp [hp]), hread, goledReadLeft, hs.query]
  have hright : step u = .next (goledReadRight u) :=
    Between.step (s := u) ⟨h.mode, h.bus, h.send, h.oracle⟩ (by decide) nofun
  have hquery : goledReadRight u = _ := Shows.query (s := u) ⟨hs.pix, hs.kept⟩ _ _ _
  rw [packNibbles_eq] at hquery
  exact (Reaches.of_step hleft).trans (Reaches.of_step (hright.trans (congrArg _ hquery)))

/-- One pair of a row: its byte is sent, for its unit (42_gray_oled R262, R265, R266). -/
theorem GoledRow.reaches_pair {w : GoledWork} {c0 n r k : Nat} (h : GoledRow c f w s) (hce : w.ce = (c0 + n : Nat) - 1)
    (hr : w.r = r) (hk : k < n) (hc : c0 + n ≤ 64) (hrow : r < 128) :
    ∃ t, GoledRow c f w t ∧ Reaches (goledPairOrRow (c0 + k : Nat) s) (goledPairOrRow (c0 + (k + 1) : Nat) t) ∧
      Advanced s t (dataEvents c.framing [goledByte f (c0 + k : Nat) r])
        [(64 * r + (c0 + k), goledByte f (c0 + k : Nat) r)] := by
  obtain ⟨hbt, rfl, hv, hs, ⟨cp', l', rt', he⟩⟩ := h
  let u : State := { s with sr := 0, goled := { w with c := (c0 + k : Nat), l := l', rt := rt' }, pos := .goledLeft }
  have hstart : goledPairOrRow (c0 + k : Nat) s = u := by
    rw [goledPairOrRow, he, if_pos (by simp only [hce]; omega)]
  have hbyte := reaches_goledByte (s := u) (f := f) ⟨hbt.mode, hbt.bus, hbt.send, hbt.oracle⟩ ⟨hs.pix, hs.kept⟩ rfl
  rw [show u.goled.r = r from hr, show u.goled.c = (c0 + k : Nat) from rfl] at hbyte
  let b := goledByte f (c0 + k : Nat) r
  let v : State := { u with sr := b, goled := { w with
    c := (c0 + k : Nat), l := f (2 * (c0 + k : Nat)) r, rt := f (2 * (c0 + k : Nat) + 1) r } }
  have haddr : pixelAddr v = some (64 * r + (c0 + k)) := by
    have hdest : goledPixelDest v.goled = (((c0 + k : Nat) : Int), (r : Int)) := by
      rw [goledPixelDest, show v.goled.r = r from hr]
    have hv' : v.cfg.variant = .goled := hv
    rw [pixelAddr, hv', hdest]
    exact fmAddr_natCast (v := .goled) (by simp only [fmExtent]; omega) (by simp only [fmExtent]; omega)
  have hpix := Between.reaches_pixel (s := v) (b := b) ⟨hbt.mode, hbt.bus, hbt.send, hbt.oracle⟩ .goledNextPair haddr
  refine ⟨sentPixel b (64 * r + (c0 + k)) .goledNextPair v,
    ⟨⟨hbt.mode, rfl, rfl, hbt.oracle⟩, rfl, hv, ⟨hs.pix, hs.kept⟩, ⟨_, _, _, rfl⟩⟩, ?_,
    ⟨rfl, rfl, rfl, rfl, rfl, rfl, rfl, rfl, rfl, rfl⟩⟩
  rw [hstart]
  exact hbyte.trans hpix

/-- One row: each of its pairs (42_gray_oled R262). -/
theorem GoledRow.reaches_row {w : GoledWork} {c0 n r : Nat} (h : GoledRow c f w s) (hxc : w.xc = c0)
    (hce : w.ce = (c0 + n : Nat) - 1) (hn : 0 < n) (hc : c0 + n ≤ 64) (hre : (r : Int) ≤ w.re) (hrow : r < 128) :
    ∃ t, GoledRow c f { w with r := r } t ∧ Reaches (goledRowOrEnd r s) (goledRowOrEnd (r + 1 : Nat) t) ∧
      Advanced s t ((List.range n).flatMap fun k => dataEvents c.framing [goledByte f (c0 + k : Nat) r])
        ((List.range n).flatMap fun k => [(64 * r + (c0 + k), goledByte f (c0 + k : Nat) r)]) := by
  obtain ⟨hbt, rfl, hv, hs, ⟨cp', l', rt', he⟩⟩ := h
  let u : State := { s with goled := { s.goled with r := r } }
  have hstart : goledRowOrEnd r s = goledPairOrRow (c0 + 0 : Nat) u := by
    rw [goledRowOrEnd_eq (by rw [he]; exact hre) (by rw [he]; simp only [hxc, hce]; omega), he]
    simp only [u, he, hxc]
    rfl
  obtain ⟨t, ht, hreach, hadv⟩ := reaches_loop (s := u) (P := fun _ u => GoledRow s.cfg f { w with r := r } u)
    (turn := fun k => goledPairOrRow (c0 + k : Nat))
    (evs := fun k => dataEvents s.cfg.framing [goledByte f (c0 + k : Nat) r])
    (ws := fun k => [(64 * r + (c0 + k), goledByte f (c0 + k : Nat) r)]) n
    (fun k hk u hu => hu.reaches_pair (w := { w with r := r }) hce rfl hk hc hrow)
    ⟨⟨hbt.mode, hbt.bus, hbt.send, hbt.oracle⟩, rfl, hv, ⟨hs.pix, hs.kept⟩, ⟨cp', l', rt', by simp only [u, he]⟩⟩
  refine ⟨t, ht, ?_, hadv.after (s := s) (evs := []) (ws := []) ⟨rfl, rfl, rfl, rfl, rfl, rfl, rfl, rfl, ?_, rfl⟩⟩
  · obtain ⟨cp, l, rt, ht'⟩ := ht.goled
    have hend : goledPairOrRow (c0 + n : Nat) t = goledRowOrEnd (r + 1 : Nat) t := by
      rw [goledPairOrRow, ht', if_neg (by simp only [hce]; omega)]
      rfl
    rw [hstart, ← hend]
    exact hreach
  · exact (List.append_nil _).symm

/-- A whole GOLED write of a window `⟨x, y, w, h⟩` that passes the guard and is not degenerate (42_gray_oled R262, R264 to
R266). -/
theorem reaches_goledWrite {x y w h : Nat} (hv : s.cfg.variant = .goled) (hb : s.bus = []) (hs : s.send = none)
    (ho : s.oracle = none) (hwin : window s = ⟨x, y, w, h⟩) (hg : x < 128 ∧ y < 128 ∧ 2 ≤ w ∧ 0 < h)
    (hshows : Shows s f) :
    ∃ t, Reaches (goledBegin ⟨x, y, w, h⟩ s) (writeDone t) ∧ t.bus = [] ∧ t.send = none ∧
      Advanced s t
        (cmdEvents [0x15, BitVec.ofNat 8 (x / 2), BitVec.ofNat 8 (min (x / 2 + w / 2 - 1) 63)]
          ++ cmdEvents [0x75, BitVec.ofNat 8 y, BitVec.ofNat 8 (min (y + h - 1) 127)]
          ++ (List.range (min h (128 - y))).flatMap fun r => (List.range (min (w / 2) (64 - x / 2))).flatMap fun k =>
            dataEvents s.cfg.framing [goledByte f (x / 2 + k : Nat) (y + r : Nat)])
        (windowWrites 64 (x / 2) (min (w / 2) (64 - x / 2)) y (min h (128 - y)) fun cp row => goledByte f cp row) := by
  obtain ⟨u, hrun, hbt, hclip, hadv⟩ := run_goledWindow hv hb hs ho hwin ⟨hg.1, hg.2.1.le, hg.2.2⟩
  set pairs := min (w / 2) (64 - x / 2)
  set rows := min h (128 - y)
  let g := goledClip ⟨x, y, w, h⟩ s.goled
  have hxc : g.xc = (x / 2 : Nat) := by simp only [g, goledClip]; omega
  have hce : g.ce = (x / 2 + pairs : Nat) - 1 := by simp only [g, goledClip]; omega
  have hre : g.re = (y + rows : Nat) - 1 := by simp only [g, goledClip]; omega
  obtain ⟨t, ⟨r', ht⟩, hreach, hadv'⟩ := reaches_loop (s := u)
    (P := fun _ u => ∃ r : Int, GoledRow s.cfg f { g with r := r } u) (turn := fun r => goledRowOrEnd (y + r : Nat))
    (evs := fun r => (List.range pairs).flatMap fun k =>
      dataEvents s.cfg.framing [goledByte f (x / 2 + k : Nat) (y + r : Nat)])
    (ws := fun r => (List.range pairs).flatMap fun k =>
      [(64 * (y + r) + (x / 2 + k), goledByte f (x / 2 + k : Nat) (y + r : Nat))]) rows
    (fun r hr u ⟨r', hu⟩ => by
      obtain ⟨t, ht, hreach, hadv⟩ := hu.reaches_row (r := y + r) hxc hce (by omega) (by omega)
        (by simp only [hre]; omega) (by omega)
      exact ⟨t, ⟨_, ht⟩, hreach, hadv⟩)
    ⟨g.r, hbt, hadv.cfg, hv, hshows.advanced hadv, ⟨g.c, g.l, g.rt, hclip⟩⟩
  obtain ⟨cp, l, rt, ht'⟩ := ht.goled
  have hend : goledRowOrEnd (y + rows : Nat) t = writeDone t :=
    goledRowOrEnd_end (by rw [ht']; simp only [hre]; omega)
  exact ⟨t, hend ▸ Reaches.trans ⟨12, hrun⟩ hreach, ht.between.bus, ht.between.send, hadv.trans hadv'⟩

end Sys2Proof.Machine
end

section
/-! SUPPORT. The frame write of WOLED from its first command to its last byte, over any pixel source (43_wide_oled R301). -/

namespace Sys2Proof.Machine

variable {s t : State} {c : Config} {f : Int → Int → Color}

/-- The operands of the two window commands of WOLED, where they are not free draws (43_wide_oled R301, R302, R314). -/
structure WoledOperands (x y w h : Nat) (a b pg pe : Byte) : Prop where
  first : x ≤ 255 → a.toNat = x
  last : 0 < x + w → b.toNat = min (x + w - 1) 127
  top : y / 8 ≤ 255 → pg.toNat = y / 8
  bottom : 0 < y / 8 + h / 8 → pe.toNat = min (y / 8 + h / 8 - 1) 7

/-- The two window commands of WOLED (43_wide_oled R301, R314, R315). -/
theorem run_woledWindow {x y w h : Nat} (hv : s.cfg.variant = .woled) (hb : s.bus = []) (hs : s.send = none)
    (ho : s.oracle = none) :
    ∃ t a b pg pe, Sys2Proof.core.run 12 (woledBegin ⟨x, y, w, h⟩ s) = .next (woledPageOrEnd (y / 8 : Nat) t) ∧
      Between .writing t ∧ t.woled = woledClip ⟨x, y, w, h⟩ s.woled ∧ WoledOperands x y w h a b pg pe ∧
      Advanced s t (cmdEvents [0x21, a, b] ++ cmdEvents [0x22, pg, pe]) [] := by
  let o := woledClip ⟨x, y, w, h⟩ s.woled
  have hpg : o.pg = (y / 8 : Nat) := by simp only [o, woledClip]; omega
  have hxe : o.xe = min ((x : Int) + w - 1) 127 := rfl
  have hpe : o.pe = min (((y / 8 + h / 8 : Nat) : Int) - 1) 7 := by simp only [o, woledClip]; omega
  let a := enc8 s.draws x
  let b := enc8 a.2 o.xe
  let pg := enc8 b.2 o.pg
  let pe := enc8 pg.2 o.pe
  let s1 : State := { s with mode := .writing, woled := o, draws := b.2 }
  let cols : WireWord := ⟨[0x21, a.1, b.1], []⟩
  let pages : WireWord := ⟨[0x22, pg.1, pe.1], []⟩
  have hsp : wireSpace s1 = .woled := by simp only [wireSpace, s1, hv]
  have hrun := run_twoCommands (s := s1) (m := .writing) (w := cols) (p := .woledPageWindow) (v := pages) (q := .woledPages)
    (n := pe.2) ⟨rfl, hb, hs, ho⟩ (hsp ▸ isCommand_woled (.inl rfl) _ _) rfl (hsp ▸ isCommand_woled (.inr rfl) _ _)
  rw [wordEvents_cmd, wordEvents_cmd, cmdEvents_length, cmdEvents_length] at hrun
  let t := sent pages .woledPages { sent cols .woledPageWindow s1 with draws := pe.2 }
  have hend : resume t = woledPageOrEnd (y / 8 : Nat) t := congrArg (woledPageOrEnd · t) hpg
  refine ⟨t, a.1, b.1, pg.1, pe.1, hrun.trans (congrArg _ hend), ⟨rfl, rfl, rfl, ho⟩, rfl,
    ⟨fun hx => ?_, fun hx => ?_, fun hy => ?_, fun hy => ?_⟩, ⟨rfl, rfl, rfl, rfl, rfl, rfl, rfl, rfl, ?_, rfl⟩⟩
  · have hfit : (a.1.toNat : Int) = x := (enc8_toNat (by omega) (by omega)).1
    omega
  · have hfit : (b.1.toNat : Int) = o.xe := (enc8_toNat (by omega) (by omega)).1
    omega
  · have hfit : (pg.1.toNat : Int) = o.pg := (enc8_toNat (by omega) (by omega)).1
    omega
  · have hfit : (pe.1.toNat : Int) = o.pe := (enc8_toNat (by omega) (by omega)).1
    omega
  · simp [t, s1, sent, afterWord, cols, pages]

/-- WOLED: column `cp` of a page, at its bottom query with SR cleared, or the next page (43_wide_oled R301). -/
def woledColumnOrPage (cp : Int) (s : State) : State :=
  if cp ≤ s.woled.xe then { s with sr := 0, woled := { s.woled with c := cp, off := 7 }, pos := .woledPixel }
  else woledPageOrEnd (s.woled.p + 1) s

theorem woledNext_eq (s : State) : woledNext s = woledColumnOrPage (s.woled.c + 1) s := rfl

/-- A page of a window that has columns begins at its first one. -/
theorem woledPageOrEnd_eq {p : Int} (hp : p ≤ s.woled.pe) (hc : (window s).x ≤ s.woled.xe) :
    woledPageOrEnd p s = woledColumnOrPage (window s).x { s with woled := { s.woled with p := p } } := by
  rw [woledPageOrEnd, if_pos ⟨hp, hc⟩, woledColumnOrPage, if_pos hc]

theorem woledPageOrEnd_end {p : Int} (h : s.woled.pe < p ∨ s.woled.xe < (window s).x) :
    woledPageOrEnd p s = writeDone s :=
  if_neg fun hin => h.elim (not_lt.mpr hin.1) (not_lt.mpr hin.2)

/-- In a page of a WOLED write from column `x` with window registers `w`: everything the rest of the page depends on. -/
structure WoledPage (c : Config) (f : Int → Int → Color) (x : Int) (w : WoledWork) (s : State) : Prop where
  between : Between .writing s
  cfg : s.cfg = c
  variant : c.variant = .woled
  shows : Shows s f
  left : (window s).x = x
  woled : ∃ cp off, s.woled = { w with c := cp, off := off }

/-- A pixel of a column, other than the topmost (43_wide_oled R301). -/
theorem step_woledPixel_next (h : Between .writing s) (hs : Shows s f) (hp : s.pos = .woledPixel)
    (hoff : 0 < s.woled.off) :
    step s = .next { s with
      sr := shiftIn s.sr (f s.woled.c (8 * s.woled.p + s.woled.off))
      woled := { s.woled with off := s.woled.off - 1 } } := by
  have hread : seqStep s = woledReadPixel s := by rw [seqStep, hp]
  rw [h.step (by decide) (by simp [hp]), hread]
  simp only [woledReadPixel, hs.query, if_pos hoff]

/-- The topmost pixel of a column, after which its byte is due (43_wide_oled R301, R304). -/
theorem step_woledPixel_last (h : Between .writing s) (hs : Shows s f) (hp : s.pos = .woledPixel)
    (hoff : s.woled.off = 0) :
    step s = .next (standAt ⟨[], [shiftIn s.sr (f s.woled.c (8 * s.woled.p + (0 : Nat)))]⟩ .woledNextColumn
      { s with sr := shiftIn s.sr (f s.woled.c (8 * s.woled.p + (0 : Nat))) }) := by
  have hread : seqStep s = woledReadPixel s := by rw [seqStep, hp]
  rw [h.step (by decide) (by simp [hp]), hread]
  simp only [woledReadPixel, hs.query, hoff, Nat.lt_irrefl, if_false]

/-- After `n` queries of a column, none of them the eighth, SR holds their pixels. -/
def woledPacked (n : Nat) (f : Int → Int → Color) (s : State) : State :=
  { s with
    sr := BitVec.ofNat 8 (shifted (fun k => f s.woled.c (8 * s.woled.p + ((7 - k : Nat) : Int))) n)
    woled := { s.woled with off := 7 - n } }

/-- The eight queries of a column, and its byte due (43_wide_oled R304). -/
theorem reaches_woledByte (h : Between .writing s) (hs : Shows s f) (hp : s.pos = .woledPixel) (hsr : s.sr = 0)
    (hoff : s.woled.off = 7) :
    Reaches s (standAt ⟨[], [woledByte f s.woled.c s.woled.p]⟩ .woledNextColumn
      { s with sr := woledByte f s.woled.c s.woled.p, woled := { s.woled with off := 0 } }) := by
  have hbt (n : Nat) : Between .writing (woledPacked n f s) := ⟨h.mode, h.bus, h.send, h.oracle⟩
  have hsh (n : Nat) : Shows (woledPacked n f s) f := ⟨hs.pix, hs.kept⟩
  have hpre (n : Nat) (hn : n ≤ 7) : Reaches s (woledPacked n f s) := by
    induction n with
    | zero =>
      have hsame : woledPacked 0 f s = s := by
        rw [woledPacked, Nat.sub_zero, ← hoff, show BitVec.ofNat 8 (shifted _ 0) = s.sr by rw [hsr]; rfl]
      rw [hsame]
      exact Reaches.refl s
    | succ n ih =>
      have hlt : 0 < 7 - n := by omega
      refine (ih (by omega)).trans
        (Reaches.of_step ((step_woledPixel_next (hbt n) (hsh n) hp hlt).trans (congrArg _ ?_)))
      simp only [woledPacked, shiftIn_ofNat, shifted, Nat.sub_sub]
  refine (hpre 7 le_rfl).trans
    (Reaches.of_step ((step_woledPixel_last (hbt 7) (hsh 7) hp rfl).trans (congrArg _ ?_)))
  simp only [woledPacked, shiftIn_ofNat, ← woledByte_eq_shifted]
  rfl

/-- One column of a page: its byte is sent, for its unit (43_wide_oled R301, R304, R305). -/
theorem WoledPage.reaches_column {x0 : Int} {w : WoledWork} {c0 n p k : Nat} (h : WoledPage c f x0 w s)
    (hxe : w.xe = (c0 + n : Nat) - 1) (hp : w.p = p) (hk : k < n) (hc : c0 + n ≤ 128) (hpage : p < 8) :
    ∃ t, WoledPage c f x0 w t ∧
      Reaches (woledColumnOrPage (c0 + k : Nat) s) (woledColumnOrPage (c0 + (k + 1) : Nat) t) ∧
      Advanced s t (dataEvents c.framing [woledByte f (c0 + k : Nat) p])
        [(128 * p + (c0 + k), woledByte f (c0 + k : Nat) p)] := by
  obtain ⟨hbt, rfl, hv, hs, hleft, ⟨cp', off', he⟩⟩ := h
  let u : State := { s with sr := 0, woled := { w with c := (c0 + k : Nat), off := 7 }, pos := .woledPixel }
  have hstart : woledColumnOrPage (c0 + k : Nat) s = u := by
    rw [woledColumnOrPage, he, if_pos (by simp only [hxe]; omega)]
  have hbyte := reaches_woledByte (s := u) (f := f) ⟨hbt.mode, hbt.bus, hbt.send, hbt.oracle⟩ ⟨hs.pix, hs.kept⟩ rfl rfl
    rfl
  rw [show u.woled.p = p from hp, show u.woled.c = (c0 + k : Nat) from rfl] at hbyte
  let b := woledByte f (c0 + k : Nat) p
  let v : State := { u with sr := b, woled := { w with c := (c0 + k : Nat), off := 0 } }
  have haddr : pixelAddr v = some (128 * p + (c0 + k)) := by
    have hdest : woledPixelDest v.woled = (((c0 + k : Nat) : Int), (p : Int)) := by
      rw [woledPixelDest, show v.woled.p = p from hp]
    have hv' : v.cfg.variant = .woled := hv
    rw [pixelAddr, hv', hdest]
    exact fmAddr_natCast (v := .woled) (by simp only [fmExtent]; omega) (by simp only [fmExtent]; omega)
  have hpix := Between.reaches_pixel (s := v) (b := b) ⟨hbt.mode, hbt.bus, hbt.send, hbt.oracle⟩ .woledNextColumn haddr
  refine ⟨sentPixel b (128 * p + (c0 + k)) .woledNextColumn v,
    ⟨⟨hbt.mode, rfl, rfl, hbt.oracle⟩, rfl, hv, ⟨hs.pix, hs.kept⟩, hleft, ⟨_, _, rfl⟩⟩, ?_,
    ⟨rfl, rfl, rfl, rfl, rfl, rfl, rfl, rfl, rfl, rfl⟩⟩
  rw [hstart]
  exact hbyte.trans hpix

/-- One page: each of its columns (43_wide_oled R301). -/
theorem WoledPage.reaches_page {w : WoledWork} {c0 n p : Nat} (h : WoledPage c f c0 w s)
    (hxe : w.xe = (c0 + n : Nat) - 1) (hn : 0 < n) (hc : c0 + n ≤ 128) (hpe : (p : Int) ≤ w.pe) (hpage : p < 8) :
    ∃ t, WoledPage c f c0 { w with p := p } t ∧ Reaches (woledPageOrEnd p s) (woledPageOrEnd (p + 1 : Nat) t) ∧
      Advanced s t ((List.range n).flatMap fun k => dataEvents c.framing [woledByte f (c0 + k : Nat) p])
        ((List.range n).flatMap fun k => [(128 * p + (c0 + k), woledByte f (c0 + k : Nat) p)]) := by
  obtain ⟨hbt, rfl, hv, hs, hleft, ⟨cp', off', he⟩⟩ := h
  let u : State := { s with woled := { s.woled with p := p } }
  have hstart : woledPageOrEnd p s = woledColumnOrPage (c0 + 0 : Nat) u := by
    rw [woledPageOrEnd_eq (by rw [he]; exact hpe) (by rw [hleft, he]; simp only [hxe]; omega), hleft]
    rfl
  obtain ⟨t, ht, hreach, hadv⟩ := reaches_loop (s := u) (P := fun _ u => WoledPage s.cfg f c0 { w with p := p } u)
    (turn := fun k => woledColumnOrPage (c0 + k : Nat))
    (evs := fun k => dataEvents s.cfg.framing [woledByte f (c0 + k : Nat) p])
    (ws := fun k => [(128 * p + (c0 + k), woledByte f (c0 + k : Nat) p)]) n
    (fun k hk u hu => hu.reaches_column (w := { w with p := p }) hxe rfl hk hc hpage)
    ⟨⟨hbt.mode, hbt.bus, hbt.send, hbt.oracle⟩, rfl, hv, ⟨hs.pix, hs.kept⟩, hleft, ⟨cp', off', by simp only [u, he]⟩⟩
  refine ⟨t, ht, ?_, hadv.after (s := s) (evs := []) (ws := []) ⟨rfl, rfl, rfl, rfl, rfl, rfl, rfl, rfl, ?_, rfl⟩⟩
  · obtain ⟨cp, off, ht'⟩ := ht.woled
    have hend : woledColumnOrPage (c0 + n : Nat) t = woledPageOrEnd (p + 1 : Nat) t := by
      rw [woledColumnOrPage, ht', if_neg (by simp only [hxe]; omega)]
      rfl
    rw [hstart, ← hend]
    exact hreach
  · exact (List.append_nil _).symm

/-- A whole WOLED write of a window `⟨x, y, w, h⟩` that is not degenerate (43_wide_oled R301, R303 to R305). -/
theorem reaches_woledWrite {x y w h : Nat} (hv : s.cfg.variant = .woled) (hb : s.bus = []) (hs : s.send = none)
    (ho : s.oracle = none) (hwin : window s = ⟨x, y, w, h⟩) (hg : 0 < w ∧ 8 ≤ h ∧ x < 128 ∧ y < 64)
    (hshows : Shows s f) :
    ∃ t a b pg pe, Reaches (woledBegin ⟨x, y, w, h⟩ s) (writeDone t) ∧ t.bus = [] ∧ t.send = none ∧
      WoledOperands x y w h a b pg pe ∧
      Advanced s t
        (cmdEvents [0x21, a, b] ++ cmdEvents [0x22, pg, pe]
          ++ (List.range (min (h / 8) (8 - y / 8))).flatMap fun p => (List.range (min w (128 - x))).flatMap fun k =>
            dataEvents s.cfg.framing [woledByte f (x + k : Nat) (y / 8 + p : Nat)])
        (windowWrites 128 x (min w (128 - x)) (y / 8) (min (h / 8) (8 - y / 8)) fun col pg => woledByte f col pg) := by
  obtain ⟨u, a, b, pg, pe, hrun, hbt, hclip, hops, hadv⟩ := run_woledWindow hv hb hs ho
  set columns := min w (128 - x)
  set pages := min (h / 8) (8 - y / 8)
  let o := woledClip ⟨x, y, w, h⟩ s.woled
  have hxe : o.xe = (x + columns : Nat) - 1 := by simp only [o, woledClip]; omega
  have hpe : o.pe = (y / 8 + pages : Nat) - 1 := by simp only [o, woledClip]; omega
  have hleft : (window u).x = x := by
    rw [show window u = window s by simp only [window, hadv.src, hadv.latch, hadv.text, hadv.cfg], hwin]
  obtain ⟨t, ⟨p', ht⟩, hreach, hadv'⟩ := reaches_loop (s := u)
    (P := fun _ u => ∃ p : Int, WoledPage s.cfg f x { o with p := p } u)
    (turn := fun p => woledPageOrEnd (y / 8 + p : Nat))
    (evs := fun p => (List.range columns).flatMap fun k =>
      dataEvents s.cfg.framing [woledByte f (x + k : Nat) (y / 8 + p : Nat)])
    (ws := fun p => (List.range columns).flatMap fun k =>
      [(128 * (y / 8 + p) + (x + k), woledByte f (x + k : Nat) (y / 8 + p : Nat))]) pages
    (fun p hp u ⟨p', hu⟩ => by
      obtain ⟨t, ht, hreach, hadv⟩ := hu.reaches_page (p := y / 8 + p) hxe (by omega) (by omega)
        (by simp only [hpe]; omega) (by omega)
      exact ⟨t, ⟨_, ht⟩, hreach, hadv⟩)
    ⟨o.p, hbt, hadv.cfg, hv, hshows.advanced hadv, hleft, ⟨o.c, o.off, hclip⟩⟩
  obtain ⟨cp, off, ht'⟩ := ht.woled
  have hend : woledPageOrEnd (y / 8 + pages : Nat) t = writeDone t :=
    woledPageOrEnd_end (.inl (by rw [ht']; simp only [hpe]; omega))
  exact ⟨t, a, b, pg, pe, hend ▸ Reaches.trans ⟨12, hrun⟩ hreach, ht.between.bus, ht.between.send, hops,
    hadv.trans hadv'⟩

end Sys2Proof.Machine
end

section
/-! PROOFS. Whole frame writes of a pixel function over a window of each unit (O41, O42, O43). -/

namespace Sys2Proof.Machine

variable {s t : State}

/-! ### Requests -/

/-- The end of a frame write from a pixel function or of CLEAR_FRAME ends the request. -/
theorem writeDone_eq (h : s.src = .callback ∨ s.src = .constant) : writeDone s = finishRequest s := by
  rcases h with h | h <;> rw [writeDone, h]

/-- A byte whose number is `n`. -/
theorem byte_eq_ofNat {b : Byte} {n : Nat} (h : b.toNat = n) : b = BitVec.ofNat 8 n := by
  rw [← h, BitVec.ofNat_toNat, BitVec.setWidth_eq]

/-- After the stores of a window on a panel of `rows` rows: its units hold their bytes, and all others are as they were
(20_memory R96). -/
theorem read_after_window {m m' : List Host.Cell} {stride rows u0 nu v0 nv : Nat} {byte : Nat → Nat → Byte}
    (hm : m' = writeAll m (windowWrites stride u0 nu v0 nv byte)) (hu : u0 + nu ≤ stride) (hv : v0 + nv ≤ rows) :
    (∀ u v : Nat, u < stride → v < rows → Memory.read m' (stride * v + u) =
      if u0 ≤ u ∧ u < u0 + nu ∧ v0 ≤ v ∧ v < v0 + nv then some (byte u v) else Memory.read m (stride * v + u)) ∧
    ∀ a, stride * rows ≤ a → Memory.read m' a = Memory.read m a := by
  subst hm
  exact ⟨fun u v hu' _ => read_windowWrites hu hu',
    fun a ha => read_windowWrites_beyond hu ((Nat.mul_le_mul_left _ hv).trans ha)⟩

/-- The state in which the algorithm of SET_FRAME_CALLBACK starts. -/
def callbackStart (x y w h : Half) (s : State) : State :=
  { s with latch := ⟨0x02, 0, 0, 0, x, y, w, h⟩, src := .callback }

section Callback

variable {x y w h : Half} (hm : s.mode = .idle) (hx : x.toNat + w.toNat ≤ 65535) (hy : y.toNat + h.toNat ≤ 65535)

include hm hx hy

/-- SET_FRAME_CALLBACK, accepted on EPD. -/
theorem exec_callback_epd (hv : s.cfg.variant = .epd)
    (hd : s.cfg.degenerateExtent = .empty ∨ (8 ≤ w.toNat ∧ 0 < h.toNat ∧ x.toNat < 200 ∧ y.toNat < 200)) :
    exec (.setFrameCallback x y w h) s =
      .next (epdBegin ⟨x.toNat, y.toNat, w.toNat, h.toNat⟩ (callbackStart x y w h s)) :=
  (exec_setFrameCallback_idle hm hx hy).trans
    (congrArg _ (startWrite_epd_begins (s := callbackStart x y w h s) hv rfl hd))

/-- The same on GOLED, for a window that passes the guard. -/
theorem exec_callback_goled (hv : s.cfg.variant = .goled)
    (hg : x.toNat < 128 ∧ y.toNat ≤ 128 ∧ 2 ≤ w.toNat ∧ 0 < h.toNat)
    (hd : s.cfg.degenerateExtent = .empty ∨ y.toNat < 128) :
    exec (.setFrameCallback x y w h) s =
      .next (goledBegin ⟨x.toNat, y.toNat, w.toNat, h.toNat⟩ (callbackStart x y w h s)) :=
  (exec_setFrameCallback_idle hm hx hy).trans
    (congrArg _ (startWrite_goled_begins (s := callbackStart x y w h s) hv rfl hg hd))

/-- The same on WOLED. -/
theorem exec_callback_woled (hv : s.cfg.variant = .woled)
    (hd : s.cfg.degenerateExtent = .empty ∨ (0 < w.toNat ∧ 8 ≤ h.toNat ∧ x.toNat < 128 ∧ y.toNat < 64)) :
    exec (.setFrameCallback x y w h) s =
      .next (woledBegin ⟨x.toNat, y.toNat, w.toNat, h.toNat⟩ (callbackStart x y w h s)) :=
  (exec_setFrameCallback_idle hm hx hy).trans
    (congrArg _ (startWrite_woled_begins (s := callbackStart x y w h s) hv rfl hd))

end Callback

/-! ### Whole writes -/

/-- Settles O41: the window is not degenerate, so both ends fit their bytes. -/
theorem epdFrameWriteFillsTheWindow : Obligations.EpdFrameWriteFillsTheWindow := by
  unfold Obligations.EpdFrameWriteFillsTheWindow
  intro s x y w h rest hm hv hb hs ho hc hxw hyh hw hh hx hy f b0 groups rows fr hbusy
  obtain ⟨t, a, b, lo, hi, p, ⟨n, hrun⟩, hbus, hsend, hleft, hadv, hfirst, hlast, hbottom⟩ :=
    reaches_epdWrite (s := callbackStart x y w h s) (f := f) (x := x.toNat) (y := y.toNat) (w := w.toNat) (h := h.toNat) hv
      hb hs ho rfl (by omega) (fun _ _ => shows_callback rfl hc) hbusy
  rw [writeDone_eq (.inl hadv.src)] at hrun
  obtain ⟨ha, hp⟩ := hfirst (by omega)
  obtain ⟨hlo, rfl⟩ := hbottom (by omega)
  have hexec := exec_callback_epd hm hxw hyh hv (.inr ⟨hw, hh, hx, hy⟩)
  refine ⟨n, _, _, hexec, hrun, rfl, rfl, hbus, hsend, hleft, hadv.trace.trans ?_, ?_⟩
  · have hrows : ((List.range rows).flatMap fun r => epdRowEvents fr f b0 groups (y.toNat + r) (p r)) =
        (List.range rows).flatMap fun r => epdRowEvents fr f b0 groups (y.toNat + r) (BitVec.ofNat 8 b0) :=
      List.flatMap_congr fun r hr => by rw [byte_eq_ofNat (hp r (List.mem_range.mp hr))]
    have hb : b.toNat = b0 + groups - 1 := by
      have := hlast (by omega)
      omega
    have hlo : lo.toNat = y.toNat + rows - 1 := by omega
    rw [byte_eq_ofNat ha, byte_eq_ofNat hb, byte_eq_ofNat hlo, Nat.div_eq_of_lt (by omega : y.toNat < 256)]
    simp only [← List.append_assoc]
    exact congrArg _ hrows
  · exact read_after_window (rows := 200) hadv.fm (by omega) (by omega)

/-- Settles O42. -/
theorem goledFrameWriteFillsTheWindow : Obligations.GoledFrameWriteFillsTheWindow := by
  unfold Obligations.GoledFrameWriteFillsTheWindow
  intro s x y w h hm hv hb hs ho hc hxw hyh hw hh hx hy f c0 pairs rows
  obtain ⟨t, ⟨n, hrun⟩, hbus, hsend, hadv⟩ := reaches_goledWrite (s := callbackStart x y w h s) (f := f) (x := x.toNat)
    (y := y.toNat) (w := w.toNat) (h := h.toNat) hv hb hs ho rfl ⟨hx, hy, hw, hh⟩ (shows_callback rfl hc)
  rw [writeDone_eq (.inl hadv.src)] at hrun
  have hexec := exec_callback_goled hm hxw hyh hv ⟨hx, hy.le, hw, hh⟩ (.inr hy)
  refine ⟨n, _, _, hexec, hrun, rfl, rfl, hbus, hsend, hadv.trace.trans ?_, ?_⟩
  · rw [show min (x.toNat / 2 + w.toNat / 2 - 1) 63 = c0 + pairs - 1 by omega,
      show min (y.toNat + h.toNat - 1) 127 = y.toNat + rows - 1 by omega]
    simp only [← List.append_assoc]
    rfl
  · exact read_after_window (rows := 128) hadv.fm (by omega) (by omega)

/-- Settles O43: the window is not degenerate, so all four ends fit their bytes. -/
theorem woledFrameWriteFillsTheWindow : Obligations.WoledFrameWriteFillsTheWindow := by
  unfold Obligations.WoledFrameWriteFillsTheWindow
  intro s x y w h hm hv hb hs ho hc hxw hyh hw hh hx hy f p0 columns pages
  obtain ⟨t, a, b, pg, pe, ⟨n, hrun⟩, hbus, hsend, hops, hadv⟩ := reaches_woledWrite (s := callbackStart x y w h s) (f := f)
    (x := x.toNat) (y := y.toNat) (w := w.toNat) (h := h.toNat) hv hb hs ho rfl ⟨hw, hh, hx, hy⟩ (shows_callback rfl hc)
  rw [writeDone_eq (.inl hadv.src)] at hrun
  have hexec := exec_callback_woled hm hxw hyh hv (.inr ⟨hw, hh, hx, hy⟩)
  refine ⟨n, _, _, hexec, hrun, rfl, rfl, hbus, hsend, hadv.trace.trans ?_, ?_⟩
  · have hlast : b.toNat = x.toNat + columns - 1 := by rw [hops.last (by omega)]; omega
    have hbottom : pe.toNat = p0 + pages - 1 := by rw [hops.bottom (by omega)]; omega
    rw [byte_eq_ofNat (hops.first (by omega)), byte_eq_ofNat hlast, byte_eq_ofNat (hops.top (by omega)),
      byte_eq_ofNat hbottom]
    simp only [← List.append_assoc]
    rfl
  · exact read_after_window (rows := 8) hadv.fm (by omega) (by omega)

end Sys2Proof.Machine
end

section
/-! PROOFS. CLEAR_FRAME (O44), and the degenerate windows under EMPTY (O45). -/

namespace Sys2Proof.Machine

variable {s t : State}

/-! ### CLEAR_FRAME -/

/-- The state in which the algorithm of CLEAR_FRAME starts. -/
def clearStart (c : Byte) (s : State) : State :=
  { s with latch := ⟨0x04, c, 0, 0, 0, 0, 0, 0⟩, src := .constant }

theorem exec_clearFrame_idle {c : Byte} (hm : s.mode = .idle) (hc : s.cfg.variant ≠ .goled → c.toNat ≤ 1) :
    exec (.clearFrame c) s = .next (startWrite (clearStart c s)) := by
  simp only [exec, execClearFrame, colorFieldOk_of_le hc, serve_idle hm]
  rfl

/-- The window of CLEAR_FRAME is the panel (40 R168). -/
theorem window_clearStart (c : Byte) (s : State) :
    window (clearStart c s) = ⟨0, 0, width s.cfg.variant, height s.cfg.variant⟩ := rfl

/-- Eight pixels of one color, 0 or 1, on EPD (41_epaper R215). -/
theorem epdByte_constant {c : Byte} (hc : c.toNat ≤ 1) (x j : Int) :
    epdByte (fun _ _ => c) x j = if c = 1 then 0xFF else 0x00 := by
  rw [show epdByte (fun _ _ => c) x j = epdByte (fun _ _ => c) 0 0 from rfl]
  obtain rfl | rfl : c = 0 ∨ c = 1 := by bv_omega
  · decide
  · decide

/-- Eight pixels of one color, 0 or 1, on WOLED (43_wide_oled R304). -/
theorem woledByte_constant {c : Byte} (hc : c.toNat ≤ 1) (x p : Int) :
    woledByte (fun _ _ => c) x p = if c = 1 then 0xFF else 0x00 := by
  rw [show woledByte (fun _ _ => c) x p = woledByte (fun _ _ => c) 0 0 from rfl]
  obtain rfl | rfl : c = 0 ∨ c = 1 := by bv_omega
  · decide
  · decide

/-- A frame write from `s` that goes to its end leaves every unit of the panel at `b`, and stores nothing beyond it. -/
def FillsPanel (b : Byte) (s : State) : Prop :=
  ∃ t, Reaches (startWrite s) (finishRequest t) ∧
    (∀ a, a < fmUnits s.cfg.variant → Memory.read t.fm a = some b) ∧
    ∀ a, fmUnits s.cfg.variant ≤ a → Memory.read t.fm a = Memory.read s.fm a

/-- So does one that stores `b` in every unit of a panel of `rows` rows. -/
theorem fillsPanel_of_writes {evs : List Event} {stride rows : Nat} {byte : Nat → Nat → Byte} {b : Byte}
    (hunits : fmUnits s.cfg.variant = stride * rows) (hsrc : s.src = .constant)
    (hreach : Reaches (startWrite s) (writeDone t)) (hadv : Advanced s t evs (windowWrites stride 0 stride 0 rows byte))
    (hb : ∀ u v, byte u v = b) : FillsPanel b s := by
  rw [writeDone_eq (.inr (hadv.src.trans hsrc))] at hreach
  obtain ⟨hin, hout⟩ := read_after_window (rows := rows) hadv.fm (by omega) (by omega)
  refine ⟨t, hreach, fun a ha => ?_, fun a ha => hout a (hunits ▸ ha)⟩
  rw [hunits] at ha
  have hpos : 0 < stride := Nat.pos_of_ne_zero fun h0 => by simp [h0] at ha
  have hcol : a % stride < stride := Nat.mod_lt a hpos
  have hrow : a / stride < rows := Nat.div_lt_of_lt_mul ha
  have hread := hin (a % stride) (a / stride) hcol hrow
  rwa [Nat.div_add_mod, if_pos ⟨Nat.zero_le _, by omega, Nat.zero_le _, by omega⟩, hb] at hread

section Clear

variable {c : Byte} (hb : s.bus = []) (hs : s.send = none) (ho : s.oracle = none)

include hb hs ho

theorem clear_fills_epd {rest : List Level} (hv : s.cfg.variant = .epd) (hc : c.toNat ≤ 1)
    (hbusy : s.busyIn = List.replicate 200 (busyClearLevel s.cfg) ++ rest) :
    FillsPanel (if c = 1 then 0xFF else 0x00) (clearStart c s) := by
  have hv' : (clearStart c s).cfg.variant = .epd := hv
  have hwin : window (clearStart c s) = ⟨(0 : Nat), (0 : Nat), (200 : Nat), (200 : Nat)⟩ := by
    rw [window_clearStart, hv]
    rfl
  obtain ⟨t, _, _, _, _, _, hreach, -, -, -, hadv, -⟩ := reaches_epdWrite (s := clearStart c s) hv' hb hs ho hwin (by decide)
    (fun _ _ => shows_constant rfl) hbusy
  rw [← startWrite_epd_begins hv' hwin (.inr (by decide))] at hreach
  exact fillsPanel_of_writes (stride := 25) (rows := 200) (by rw [hv']; rfl) rfl hreach hadv
    fun _ _ => epdByte_constant hc _ _

theorem clear_fills_goled (hv : s.cfg.variant = .goled) :
    FillsPanel (BitVec.ofNat 8 (c.toNat % 16 * 16 + c.toNat % 16)) (clearStart c s) := by
  have hv' : (clearStart c s).cfg.variant = .goled := hv
  have hwin : window (clearStart c s) = ⟨(0 : Nat), (0 : Nat), (128 : Nat), (128 : Nat)⟩ := by
    rw [window_clearStart, hv]
    rfl
  obtain ⟨t, hreach, -, -, hadv⟩ := reaches_goledWrite (s := clearStart c s) hv' hb hs ho hwin (by decide)
    (shows_constant rfl)
  rw [← startWrite_goled_begins hv' hwin (by decide) (.inr (by decide))] at hreach
  exact fillsPanel_of_writes (stride := 64) (rows := 128) (by rw [hv']; rfl) rfl hreach hadv fun _ _ => rfl

theorem clear_fills_woled (hv : s.cfg.variant = .woled) (hc : c.toNat ≤ 1) :
    FillsPanel (if c = 1 then 0xFF else 0x00) (clearStart c s) := by
  have hv' : (clearStart c s).cfg.variant = .woled := hv
  have hwin : window (clearStart c s) = ⟨(0 : Nat), (0 : Nat), (128 : Nat), (64 : Nat)⟩ := by
    rw [window_clearStart, hv]
    rfl
  obtain ⟨t, _, _, _, _, hreach, -, -, -, hadv⟩ := reaches_woledWrite (s := clearStart c s) hv' hb hs ho hwin (by decide)
    (shows_constant rfl)
  rw [← startWrite_woled_begins hv' hwin (.inr (by decide))] at hreach
  exact fillsPanel_of_writes (stride := 128) (rows := 8) (by rw [hv']; rfl) rfl hreach hadv
    fun _ _ => woledByte_constant hc _ _

end Clear

/-- Settles O44: on each variant the whole panel is one window, and its bytes are all the same. -/
theorem clearFrameFillsThePanel : Obligations.ClearFrameFillsThePanel := by
  unfold Obligations.ClearFrameFillsThePanel
  intro s c rest hm hb hs ho hc hbusy byte
  have hfills : FillsPanel byte (clearStart c s) := by
    cases hv : s.cfg.variant with
    | epd => simpa only [byte, hv] using clear_fills_epd hb hs ho hv (hc (by simp [hv])) (hbusy hv)
    | goled => simpa only [byte, hv] using clear_fills_goled hb hs ho hv
    | woled => simpa only [byte, hv] using clear_fills_woled hb hs ho hv (hc (by simp [hv]))
  obtain ⟨t, ⟨n, hrun⟩, hin, hout⟩ := hfills
  exact ⟨n, _, _, exec_clearFrame_idle hm hc, hrun, rfl, rfl, hin, hout⟩

/-! ### Degenerate windows -/

/-- A window without a unit in one of its directions stores nothing. -/
theorem windowWrites_eq_nil {stride u0 nu v0 nv : Nat} {byte : Nat → Nat → Byte} (h : nv = 0 ∨ nu = 0) :
    windowWrites stride u0 nu v0 nv byte = [] := by
  rcases h with rfl | rfl <;> simp [windowWrites]

/-- Settles O45. On EPD a degenerate window has no row or no group in a row; on GOLED and WOLED its first row or page is
beyond its last, or it has no column, so the write ends with the second window command. -/
theorem degenerateWindowsSendOnlyTheirCommands : Obligations.DegenerateWindowsSendOnlyTheirCommands := by
  unfold Obligations.DegenerateWindowsSendOnlyTheirCommands
  intro s x y w h hm hb hs ho hxw hyh hd
  refine ⟨fun hv hdeg => ?_, fun hv hx hy hw hh => ?_, fun hv hdeg => ?_⟩
  · intro fr rows xEnd yEnd rest hbusy
    have hnone : rows = 0 ∨ min (w.toNat / 8) (25 - x.toNat / 8) = 0 := by omega
    obtain ⟨t, a, b, lo, hi, p, ⟨n, hrun⟩, -, -, hleft, hadv, hfirst, hlast, hbottom⟩ :=
      reaches_epdWrite (s := callbackStart x y w h s) (f := pixelFnAt s.ports.f) (x := x.toNat) (y := y.toNat)
        (w := w.toNat) (h := h.toNat) hv hb hs ho rfl (by omega) (fun _ _ => absurd hnone (by omega)) hbusy
    rw [writeDone_eq (.inl hadv.src)] at hrun
    rw [windowWrites_eq_nil hnone] at hadv
    have hrows : ((List.range rows).flatMap fun r => epdRowEvents fr (pixelFnAt s.ports.f) (x.toNat / 8)
        (min (w.toNat / 8) (25 - x.toNat / 8)) (y.toNat + r) (p r)) =
        (List.range rows).flatMap fun r => epdRowHead fr (p r) (y.toNat + r) :=
      List.flatMap_congr fun r hr => by
        have hgroups := hnone.resolve_left (by have := List.mem_range.mp hr; omega)
        rw [epdRowEvents, hgroups, List.range_zero, List.flatMap_nil, List.append_nil]
    refine ⟨n, _, _, a, b, lo, hi, p, exec_callback_epd hm hxw hyh hv (.inl hd), hrun, rfl, rfl, hleft,
      hadv.trace.trans ?_, hfirst, hlast, hbottom, fun k => congrArg (Memory.read · k) hadv.fm⟩
    simp only [← List.append_assoc]
    exact congrArg _ hrows
  · have hg : x.toNat < 128 ∧ y.toNat ≤ 128 ∧ 2 ≤ w.toNat ∧ 0 < h.toNat := ⟨hx, hy.le, hw, hh⟩
    obtain ⟨t, hrun, -, hclip, hadv⟩ := run_goledWindow (s := callbackStart x y w h s) (x := x.toNat)
      (y := y.toNat) (w := w.toNat) (h := h.toNat) hv hb hs ho rfl hg
    rw [goledRowOrEnd_end (by rw [hclip]; simp only [goledClip]; omega), writeDone_eq (.inl hadv.src)] at hrun
    refine ⟨_, _, exec_callback_goled hm hxw hyh hv hg (.inl hd), hrun, rfl, rfl, hadv.trace.trans ?_,
      fun k => congrArg (Memory.read · k) hadv.fm⟩
    rw [hy, show min (128 + h.toNat - 1) 127 = 127 by omega, ← List.append_assoc]
    rfl
  · obtain ⟨t, a, b, pg, pe, hrun, -, hclip, hops, hadv⟩ :=
      run_woledWindow (s := callbackStart x y w h s) (x := x.toNat) (y := y.toNat) (w := w.toNat) (h := h.toNat) hv hb hs ho
    have hleft : (window t).x = x.toNat := by
      simp only [window, hadv.src, hadv.latch]
      rfl
    rw [woledPageOrEnd_end (by rw [hclip, hleft]; simp only [woledClip]; omega), writeDone_eq (.inl hadv.src)] at hrun
    exact ⟨_, _, a, b, pg, pe, exec_callback_woled hm hxw hyh hv (.inl hd), hrun, rfl, rfl,
      hadv.trace.trans (List.append_assoc _ _ _).symm, hops.first, hops.last, hops.top, hops.bottom,
      fun k => congrArg (Memory.read · k) hadv.fm⟩

end Sys2Proof.Machine
end

section
/-! SUPPORT and PROOFS. The statements of 30_encoding about the decoder and the encoder: each inverts the other (O3, O4), and
words written out from the tables (O2). -/

namespace Sys2Proof.Machine

variable {i : Instr}

/-! ### Requests -/

theorem lo8_half (lo hi : Byte) : lo8 (half lo hi) = lo := BitVec.extractLsb'_append_eq_right

theorem hi8_half (lo hi : Byte) : hi8 (half lo hi) = hi := BitVec.extractLsb'_append_eq_left

/-- A descriptor with RSV 0 is decoded by its fields (30_encoding R111, R120). -/
theorem decode_descriptor (op c0 c1 : Byte) (x y w h : Half) :
    decode (descriptor op c0 c1 x y w h) = decodeRequest op c0 c1 0 x y w h := by
  simp [decode, descriptor, decodeDescriptor, half_lo8_hi8]

/-- A request's code is the descriptor of an OP value that 30_encoding R115 lists, every field that R112 marks "0" being 0. -/
theorem encode_request (hi : (encode i).space = .request) : ∃ op c0 c1 x y w h,
    encode i = descriptor op c0 c1 x y w h ∧ op ∈ definedOps ∧ ¬ unusedNotZero ⟨op, c0, c1, 0, x, y, w, h⟩ := by
  cases i with
  | init | setFrameCallback | setFrameBuffer | clearFrame | displayFrame | drawText | rdWidth | rdHeight | rdPpb | rdLight
  | rdDark => exact ⟨_, _, _, _, _, _, _, rfl, by decide, by simp [unusedNotZero]⟩
  | _ => cases hi

/-- A descriptor that decodes is the code of its request: no bit of it is dropped. -/
theorem encode_of_decodeDescriptor {bytes : List Byte} (hd : decodeDescriptor bytes = .ok i) :
    encode i = ⟨.request, ⟨bytes, []⟩⟩ := by
  have hspace : (encode i).space = .request := decode_space (c := ⟨.request, ⟨bytes, []⟩⟩) hd
  obtain ⟨op, c0, c1, x, y, w, h, he, -, -⟩ := encode_request hspace
  unfold decodeDescriptor at hd
  split at hd
  · have hl := requestLatch_of_decodeRequest hd
    rw [requestLatch, he, latchOf_descriptor] at hl
    cases hl
    simp only [he, descriptor, lo8_half, hi8_half]
  · cases hd

/-! ### Wire commands -/

theorem encode_of_decodeEpdCommand {op : Byte} {payload : List Byte} (hd : decodeEpdCommand op payload = .ok i) :
    encode i = ⟨.epd, ⟨[op], payload⟩⟩ := by
  unfold decodeEpdCommand at hd
  split at hd
  case h_13 => cases hd
  all_goals
    next hop =>
    obtain rfl := byte_eq_ofNat hop
    obtain rfl := Except.ok.inj hd
    rfl

theorem encode_of_decodeEpd {w : WireWord} (hd : decodeEpd w = .ok i) : encode i = ⟨.epd, w⟩ := by
  unfold decodeEpd at hd
  split at hd
  · exact encode_of_decodeEpdCommand hd
  · obtain rfl := Except.ok.inj hd
    rfl
  · cases hd

theorem encode_of_decodeGoled {w : WireWord} (hd : decodeGoled w = .ok i) : encode i = ⟨.goled, w⟩ := by
  unfold decodeGoled at hd
  split at hd
  · split_ifs at hd with hop hop
    all_goals
      obtain rfl := eq_of_beq hop
      obtain rfl := Except.ok.inj hd
      rfl
  · obtain rfl := Except.ok.inj hd
    rfl
  · cases hd

theorem encode_of_decodeGoledInit {w : WireWord} (hd : decodeGoledInit w = .ok i) : encode i = ⟨.goledInit, w⟩ := by
  unfold decodeGoledInit at hd
  split at hd
  · obtain rfl := Except.ok.inj hd
    rfl
  · cases hd

theorem encode_of_decodeWoled {w : WireWord} (hd : decodeWoled w = .ok i) : encode i = ⟨.woled, w⟩ := by
  unfold decodeWoled at hd
  split at hd
  · split_ifs at hd with hop hop hop
    all_goals
      obtain rfl := eq_of_beq hop
      obtain rfl := Except.ok.inj hd
      rfl
  · split_ifs at hd with h20
    obtain ⟨hop, hmode⟩ := Bool.and_eq_true_iff.mp h20
    obtain rfl := eq_of_beq hop
    obtain rfl := eq_of_beq hmode
    obtain rfl := Except.ok.inj hd
    rfl
  · split_ifs at hd with hop hop
    all_goals
      obtain rfl := eq_of_beq hop
      obtain rfl := Except.ok.inj hd
      rfl
  · obtain rfl := Except.ok.inj hd
    rfl
  · cases hd

/-! ### Decoding and encoding -/

/-- What decodes is the code of its instruction, in each of the five spaces (30_encoding R116, R118, R126, R129). -/
theorem encode_of_decode {c : Code} (hd : decode c = .ok i) : encode i = c := by
  obtain ⟨space, w⟩ := c
  cases space with
  | request =>
    obtain ⟨cmd, data⟩ := w
    simp only [decode] at hd
    split_ifs at hd with hdata
    obtain rfl := List.isEmpty_iff.mp hdata
    exact encode_of_decodeDescriptor hd
  | epd => exact encode_of_decodeEpd hd
  | goled => exact encode_of_decodeGoled hd
  | goledInit => exact encode_of_decodeGoledInit hd
  | woled => exact encode_of_decodeWoled hd

/-- Only an empty GOLED initialisation command has no encoding, and it does not decode (42_gray_oled R251). -/
theorem wf_of_decode {c : Code} (hd : decode c = .ok i) : i.wf = true := by
  cases i with
  | goledInitBlock bytes =>
    obtain rfl := encode_of_decode hd
    cases bytes with
    | nil => cases hd
    | cons b bytes => rfl
  | _ => rfl

/-- Settles O3: a request comes back from its descriptor field by field, a wire command from its opcode in its own space. -/
theorem decodeInvertsEncode : Obligations.DecodeInvertsEncode := by
  unfold Obligations.DecodeInvertsEncode
  intro i hw
  cases i with
  | init | setFrameCallback | setFrameBuffer | clearFrame | displayFrame | drawText | rdWidth | rdHeight | rdPpb | rdLight
  | rdDark => exact decode_descriptor _ _ _ _ _ _ _
  | goledInitBlock bytes =>
    cases bytes with
    | nil => cases hw
    | cons b bytes => rfl
  | _ => rfl

/-- Settles O4. -/
theorem encodeInvertsDecode : Obligations.EncodeInvertsDecode := by
  unfold Obligations.EncodeInvertsDecode
  exact fun _ _ hd => ⟨encode_of_decode hd, wf_of_decode hd⟩

/-- Settles O2: each word is the code of its instruction. -/
theorem wordsDecode : Obligations.WordsDecode :=
  ⟨decodeInvertsEncode (.setFrameCallback 8 1 16 258) rfl, decodeInvertsEncode (.drawText 0x0F 0x01 256 0 3) rfl,
    decodeInvertsEncode (.epdSetRamYWindow _) rfl, decodeInvertsEncode (.epdActivateUpdate _) rfl,
    decodeInvertsEncode .woledSetAddressingModeHorizontal rfl, decodeInvertsEncode (.epdDisplayUpdateControl _) rfl,
    decodeInvertsEncode (.woledSetColumnWindow _ _) rfl, decodeInvertsEncode (.epdUpdateSequenceSelect _) rfl,
    decodeInvertsEncode (.woledSetPageWindow _ _) rfl, decodeInvertsEncode (.goledSetRowWindow _ _) rfl⟩

end Sys2Proof.Machine
end

section
/-! SUPPORT and PROOFS. The statements of 30_encoding about the checks of a request: the decoder's (O5, O6), its arguments' (O13,
O14); and what no request changes (O18). -/

namespace Sys2Proof.Machine

variable {s t : State} {i : Instr}

/-! ### Descriptors that are no request -/

/-- A descriptor that decodes has a listed OP, RSV 0, and 0 in every field marked "0" (30_encoding R115, R116). -/
theorem legal_of_decode {d : Vector Byte 12} (hd : decode ⟨.request, ⟨d.toList, []⟩⟩ = .ok i) :
    d[0] ∈ definedOps ∧ d[3] = 0 ∧ ¬ unusedNotZero (latchOf d) := by
  obtain ⟨op, c0, c1, x, y, w, h, he, hop, hz⟩ := encode_request (decode_space hd)
  have hl : latchOf d = ⟨op, c0, c1, 0, x, y, w, h⟩ := by
    rw [← requestLatch_of_decode hd, requestLatch, he, latchOf_descriptor]
  have hop' : d[0] = op := congrArg Latch.op hl
  exact ⟨hop' ▸ hop, congrArg Latch.rsv hl, hl ▸ hz⟩

/-- A descriptor that is no request raises ILLEGAL_REQUEST in the step that accepts it (30_encoding R118, R119). -/
theorem step_accept_raises {r : HostRequest} {rest : List HostRequest} (hm : s.mode = .uninit ∨ s.mode = .idle)
    (hp : s.pos = .idle) (hb : s.bus = []) (hs : s.send = none) (hh : s.host = r :: rest)
    (hd : ∀ i, decode ⟨.request, ⟨r.desc.toList, []⟩⟩ ≠ .ok i) :
    Raises (step s) .illegalRequest { s with latch := latchOf r.desc, ports := r.ports, host := rest } := by
  have hlive : s.mode ≠ .halted := by rcases hm with hm | hm <;> simp [hm]
  refine ⟨?_, (run_raiseFault _ (by exact hlive)).1⟩
  rw [step_accept hm hp hb hs hh]
  cases hdec : decode ⟨.request, ⟨r.desc.toList, []⟩⟩ with
  | ok i => exact absurd hdec (hd i)
  | error e => simp only [accept, hh, List.tail_cons]

/-- Settles O5. -/
theorem undefinedOpcodeIsIllegal : Obligations.UndefinedOpcodeIsIllegal := by
  unfold Obligations.UndefinedOpcodeIsIllegal
  intro s r rest hm hp hb hs hh hop
  refine step_accept_raises hm hp hb hs hh fun i hd => ?_
  obtain ⟨hlisted, -, -⟩ := legal_of_decode hd
  exact hop hlisted

/-- Settles O6. -/
theorem nonzeroReservedFieldIsIllegal : Obligations.NonzeroReservedFieldIsIllegal := by
  unfold Obligations.NonzeroReservedFieldIsIllegal
  intro s r rest hm hp hb hs hh hne
  refine step_accept_raises hm hp hb hs hh fun i hd => ?_
  obtain ⟨-, hrsv, hunused⟩ := legal_of_decode hd
  exact hne.elim (· hrsv) hunused

/-! ### Arguments -/

section Arguments

variable {x y w h n : Half} {c fg bg : Byte}

/-- A request in IDLE whose arguments check (3) refuses raises ILLEGAL_ARGUMENT (30_encoding R119). -/
theorem serve_refuses (hm : s.mode = .idle) {ok : Bool} (hok : ok = false) (l : Latch) (go : State → State) :
    Raises (serve false l ok go s) .illegalArgument { s with latch := l } :=
  ⟨by simp [serve, hm, hok], (run_raiseFault _ (by simp [hm])).1⟩

theorem windowLimitOk_eq_false (hbad : 65535 < x.toNat + w.toNat ∨ 65535 < y.toNat + h.toNat) :
    windowLimitOk x y w h = false := by
  simp only [windowLimitOk, Bool.and_eq_false_iff, decide_eq_false_iff_not]
  omega

theorem textLimitOk_eq_false (hbad : 65535 < x.toNat + 8 * n.toNat ∨ 65535 < y.toNat + 8) :
    textLimitOk x y n = false := by
  simp only [textLimitOk, Bool.and_eq_false_iff, decide_eq_false_iff_not]
  omega

theorem colorFieldOk_eq_false {v : Variant} (hv : v ≠ .goled) (hc : 1 < c.toNat) : colorFieldOk v c = false := by
  cases v with
  | goled => exact absurd rfl hv
  | epd | woled => exact decide_eq_false (by omega)

/-- DRAW_TEXT of a field that check (3) refuses. -/
theorem exec_drawText_refuses (hm : s.mode = .idle)
    (hbad : textLimitOk x y n = false ∨ colorFieldOk s.cfg.variant fg = false ∨ colorFieldOk s.cfg.variant bg = false) :
    Raises (exec (.drawText fg bg x y n) s) .illegalArgument { s with latch := ⟨0x06, fg, bg, 0, x, y, n, 0⟩ } := by
  rw [exec, execDrawText]
  refine serve_refuses hm ?_ _ _
  rcases hbad with hbad | hbad | hbad <;> simp [hbad]

/-- DRAW_TEXT passes check (3), so it goes on to its first read or ends at once. -/
theorem exec_drawText_not_raising (hm : s.mode = .idle) (hx : x.toNat + 8 * n.toNat ≤ 65535) (hy : y.toNat + 8 ≤ 65535)
    (hcol : s.cfg.variant ≠ .goled → fg.toNat ≤ 1 ∧ bg.toNat ≤ 1) :
    ∃ t, exec (.drawText fg bg x y n) s = .next t ∧ ∀ code, t.pos ≠ .raising code := by
  obtain ⟨hread, hempty⟩ := drawTextBegins s fg bg x y n hm hx hy hcol
  by_cases hn : n = 0
  · exact ⟨_, hempty hn, nofun⟩
  · obtain ⟨he, -⟩ := hread hn
    exact ⟨_, he, nofun⟩

/-- The whole panel is no degenerate window and passes the GOLED guard, so CLEAR_FRAME is in WRITING (40 R168). -/
theorem exec_clearFrame_writing (hm : s.mode = .idle) (hc : s.cfg.variant ≠ .goled → c.toNat ≤ 1) :
    ∃ t, exec (.clearFrame c) s = .next t ∧ t.mode = .writing := by
  refine ⟨_, exec_clearFrame_idle hm hc, ?_⟩
  have hwin := window_clearStart c s
  cases hv : s.cfg.variant <;> rw [hv] at hwin
  case epd =>
    rw [startWrite_epd_begins (s := clearStart c s) (x := 0) (y := 0) hv hwin (.inr (by decide))]
    rfl
  case goled =>
    rw [startWrite_goled_begins (s := clearStart c s) (x := 0) (y := 0) hv hwin (by decide) (.inr (by decide))]
    rfl
  case woled =>
    rw [startWrite_woled_begins (s := clearStart c s) (x := 0) (y := 0) hv hwin (.inr (by decide))]
    rfl

end Arguments

/-- Settles O13. -/
theorem argumentLimits : Obligations.ArgumentLimits := by
  unfold Obligations.ArgumentLimits
  intro s x y w h n fg bg hm
  refine ⟨fun hbad => ⟨?_, ?_⟩, fun hbad => exec_drawText_refuses hm (.inl (textLimitOk_eq_false hbad))⟩
  · rw [exec, execSetFrameCallback]
    exact serve_refuses hm (windowLimitOk_eq_false hbad) _ _
  · rw [exec, execSetFrameBuffer]
    exact serve_refuses hm (windowLimitOk_eq_false hbad) _ _

/-- Settles O14. -/
theorem colorFields : Obligations.ColorFields := by
  unfold Obligations.ColorFields
  intro s c fg bg x y n hm
  refine ⟨fun hv => ⟨fun hc => ?_, fun hbad => ?_, fun hc => ?_, fun hfg hbg hx hy => ?_⟩, fun hv => ⟨?_, fun hx hy => ?_⟩⟩
  · rw [exec, execClearFrame]
    exact serve_refuses hm (colorFieldOk_eq_false hv hc) _ _
  · exact exec_drawText_refuses hm (.inr (hbad.imp (colorFieldOk_eq_false hv) (colorFieldOk_eq_false hv)))
  · exact exec_clearFrame_writing hm fun _ => hc
  · exact exec_drawText_not_raising hm hx hy fun _ => ⟨hfg, hbg⟩
  · exact exec_clearFrame_writing hm fun hn => absurd hv hn
  · exact exec_drawText_not_raising hm hx hy fun hn => absurd hv hn

/-! ### What no request changes -/

/-- What a request leaves of the working registers, beside what `Keeps` says of the rest of the state: SR, TB and the schedule of
disturbed reads, every unit's registers but those of the panel's own, and the text unit's where `text` fails. -/
structure LeavesUnits (text : Prop) (s t : State) : Prop where
  sr : t.sr = s.sr
  tb : t.tb = s.tb
  changed : t.changed = s.changed
  epd : s.cfg.variant ≠ .epd → t.epd = s.epd
  goled : s.cfg.variant ≠ .goled → t.goled = s.goled
  woled : s.cfg.variant ≠ .woled → t.woled = s.woled
  text : ¬ text → t.text = s.text

theorem LeavesUnits.refl (text : Prop) (s : State) : LeavesUnits text s s :=
  ⟨rfl, rfl, rfl, fun _ => rfl, fun _ => rfl, fun _ => rfl, fun _ => rfl⟩

/-- A write that begins sets the registers of the panel's unit alone; a guarded one ends, and a degenerate one raises. -/
theorem startWrite_leaves (text : Prop) {src : PixSource} (hsrc : src ≠ .text) (s : State) :
    LeavesUnits text s (startWrite { s with src := src }) := by
  have hdone : LeavesUnits text s (writeDone { s with src := src }) := by
    unfold writeDone
    split
    · next h => exact absurd h hsrc
    all_goals exact ⟨rfl, rfl, rfl, fun _ => rfl, fun _ => rfl, fun _ => rfl, fun _ => rfl⟩
  have hraise : LeavesUnits text s (raiseFault .degenerate { s with src := src }) :=
    ⟨rfl, rfl, rfl, fun _ => rfl, fun _ => rfl, fun _ => rfl, fun _ => rfl⟩
  cases hv : s.cfg.variant with
  | epd =>
    rw [startWrite_epd (by exact hv)]
    split
    · exact hraise
    · exact ⟨rfl, rfl, rfl, fun hn => absurd hv hn, fun _ => rfl, fun _ => rfl, fun _ => rfl⟩
  | goled =>
    rw [startWrite_goled (by exact hv)]
    split
    · exact hdone
    · split
      · exact hraise
      · exact ⟨rfl, rfl, rfl, fun _ => rfl, fun hn => absurd hv hn, fun _ => rfl, fun _ => rfl⟩
  | woled =>
    rw [startWrite_woled (by exact hv)]
    split
    · exact hraise
    · exact ⟨rfl, rfl, rfl, fun _ => rfl, fun _ => rfl, fun hn => absurd hv hn, fun _ => rfl⟩

/-- A request whose start leaves the units leaves them: its checks write the latch alone. -/
theorem serve_leaves {text : Prop} {isInit ok : Bool} {l : Latch} {go : State → State}
    (hgo : ∀ u, LeavesUnits text u (go u)) (ht : serve isInit l ok go s = .next t) : LeavesUnits text s t := by
  rcases serve_cases isInit l ok go s with ⟨-, e⟩ | ⟨-, e⟩ | ⟨-, -, -, e⟩ | ⟨-, -, e⟩ <;>
    obtain rfl := Host.Outcome.next.inj (e.symm.trans ht)
  · have h := hgo { s with latch := l }
    exact ⟨h.sr, h.tb, h.changed, h.epd, h.goled, h.woled, h.text⟩
  · exact ⟨rfl, rfl, rfl, fun _ => rfl, fun _ => rfl, fun _ => rfl, fun _ => rfl⟩
  · exact ⟨rfl, rfl, rfl, fun _ => rfl, fun _ => rfl, fun _ => rfl, fun _ => rfl⟩
  · exact LeavesUnits.refl text s

/-- The units a request begins: the panel's own, and the text unit for DRAW_TEXT alone. -/
theorem exec_request_leaves (hi : (encode i).space = .request) (ht : exec i s = .next t) :
    LeavesUnits (∃ fg bg x y n, i = .drawText fg bg x y n) s t := by
  have hrespond : ∀ {text : Prop} (v : Half) (u : State), LeavesUnits text u { u with pos := .respond v } := fun v u =>
    ⟨rfl, rfl, rfl, fun _ => rfl, fun _ => rfl, fun _ => rfl, fun _ => rfl⟩
  cases i
  case init =>
    rw [exec, execInit] at ht
    refine serve_leaves (fun u => ?_) ht
    split <;> exact ⟨rfl, rfl, rfl, fun _ => rfl, fun _ => rfl, fun _ => rfl, fun _ => rfl⟩
  case setFrameCallback => exact serve_leaves (startWrite_leaves _ (src := .callback) nofun) ht
  case setFrameBuffer => exact serve_leaves (startWrite_leaves _ (src := .buffer) nofun) ht
  case clearFrame => exact serve_leaves (startWrite_leaves _ (src := .constant) nofun) ht
  case displayFrame =>
    rw [exec, execDisplayFrame] at ht
    refine serve_leaves (fun u => ?_) ht
    split <;> exact ⟨rfl, rfl, rfl, fun _ => rfl, fun _ => rfl, fun _ => rfl, fun _ => rfl⟩
  case drawText fg bg x y n =>
    rw [exec, execDrawText] at ht
    refine serve_leaves (fun u => ?_) ht
    dsimp only
    split <;> exact ⟨rfl, rfl, rfl, fun _ => rfl, fun _ => rfl, fun _ => rfl, fun hn => absurd ⟨fg, bg, x, y, n, rfl⟩ hn⟩
  case rdWidth => exact serve_leaves (hrespond _) ht
  case rdHeight => exact serve_leaves (hrespond _) ht
  case rdPpb => exact serve_leaves (hrespond _) ht
  case rdLight => exact serve_leaves (hrespond _) ht
  case rdDark => exact serve_leaves (hrespond _) ht
  all_goals cases hi

/-- Settles O18: a request is a move, which keeps the trace, the panel, the pins and the inputs, and leaves the other units. -/
theorem requestFrame : Obligations.RequestFrame := by
  unfold Obligations.RequestFrame
  intro s t i hi ht
  have hspace : (encode i).space = .request := eq_of_beq hi
  have hk := exec_request_keeps hspace ht
  have hl := exec_request_leaves hspace ht
  refine ⟨{ cfg := hk.cfg, fm := fun a => by rw [hk.fm], vis := fun a => by rw [hk.vis], pins := hk.pins, sr := hl.sr,
            tb := hl.tb, trace := hk.trace, inputs := ⟨hk.ports, hk.host, hk.busyIn, hk.busyReads, hl.changed⟩,
            oracle := ⟨hk.oracle, hk.ops⟩ }, hl.epd, hl.goled, hl.woled, fun hn => hl.text ?_⟩
  rintro ⟨fg, bg, x, y, n, rfl⟩
  exact hn fg bg x y n rfl

end Sys2Proof.Machine
end

section
/-! SUPPORT and PROOFS. The statements of 30_encoding about wire commands: how each starts (O23, O24), and at which the sequencer
stands (O29). -/

namespace Sys2Proof.Machine

variable {s : State} {i : Instr}

/-! ### The first event of a wire command -/

/-- The state after the first event of a wire command: DC at command level, and the rest of its operations on the bus. -/
def commandStarted (rest : List BusOp) (s : State) : State :=
  { s with
    send := none
    bus := rest
    pins := { s.pins with dc := .cmd }
    trace := s.trace ++ [.dc .cmd]
    ops := s.ops + 1 }

/-- A wire command that is no pixel byte starts on a block of its variant: chip-select, its command-level bytes in one
transaction, and its payload's burst follow on the bus (30_encoding R122). -/
theorem exec_command_starts (hm : s.mode ≠ .halted) (hb : s.bus = []) (hq : quiet 1 s)
    (hv : wireVariant i = some s.cfg.variant) (hp : isPixelData i = false) :
    exec i s = .next (commandStarted ([.cs .assert] ++ (encode i).word.cmd.map (fun x => .xfer x none) ++ [.cs .deassert] ++
      sendDataOps s.cfg.framing (encode i).word.data) s) := by
  rw [exec_eq_issue_wordOps hv hp]
  rcases issue_cases s.cfg.variant (wordOps s.cfg.framing (encode i).word) s with ⟨h, -⟩ | ⟨-, h, -⟩ | ⟨-, -, e⟩
  · exact absurd h hm
  · exact absurd rfl h
  · rw [e, hb]
    refine (driveBus_ok (s := { s with send := none, bus := wordOps s.cfg.framing (encode i).word }) rfl hq rfl).trans ?_
    rw [settle_busy rfl]
    rfl

/-- Settles O23: the word of each EPD command is its opcode and its payload. -/
theorem epdCommandsStart : Obligations.EpdCommandsStart := by
  unfold Obligations.EpdCommandsStart
  intro s p hm hv hb hq starts
  have h (i : Instr) (hi : wireVariant i = some .epd) (hp : isPixelData i = false) :=
    exec_command_starts hm hb hq (hi.trans (congrArg some hv.symm)) hp
  exact ⟨h _ rfl rfl, h _ rfl rfl, h _ rfl rfl, h _ rfl rfl, h _ rfl rfl, h _ rfl rfl, h _ rfl rfl, h _ rfl rfl,
    h _ rfl rfl, h _ rfl rfl, h _ rfl rfl, h _ rfl rfl⟩

/-- Settles O24: the word of each GOLED and WOLED command has no payload. -/
theorem oledCommandsStart : Obligations.OledCommandsStart := by
  unfold Obligations.OledCommandsStart
  intro s a b bytes hm hb hq hne starts
  have h {v : Variant} (hv : s.cfg.variant = v) (i : Instr) (hi : wireVariant i = some v) (hp : isPixelData i = false)
      (hd : (encode i).word.data = []) : exec i s = starts (encode i).word.cmd := by
    rw [exec_command_starts hm hb hq (hi.trans (congrArg some hv.symm)) hp, hd, sendDataOps, List.append_nil]
    rfl
  exact ⟨fun hv => ⟨h hv _ rfl rfl rfl, h hv _ rfl rfl rfl, h hv (.goledInitBlock bytes) rfl rfl rfl⟩,
    fun hv => ⟨h hv _ rfl rfl rfl, h hv _ rfl rfl rfl, h hv _ rfl rfl rfl, h hv _ rfl rfl rfl, h hv _ rfl rfl rfl,
      h hv _ rfl rfl rfl⟩⟩

/-! ### The opcode sets -/

/-- The command-level bytes of the EPD space (30_encoding R125, R126). -/
theorem encode_cmd_epd (hi : (encode i).space = .epd) :
    (encode i).word.cmd = [] ∨ ∃ op ∈ epdOpcodes, (encode i).word.cmd = [op] := by
  cases i with
  | epdPixelData b => exact .inl rfl
  | epdDriverOutputControl | epdDataEntryMode | epdSetRamXWindow | epdSetRamYWindow | epdBorder | epdDisplayUpdateControl
  | epdTemperatureSensor | epdUpdateSequenceSelect | epdActivateUpdate | epdWriteRam | epdSetRamXPointer
  | epdSetRamYPointer => exact .inr ⟨_, by decide, rfl⟩
  | _ => cases hi

/-- The command-level bytes of the GOLED space outside INIT (30_encoding R127). -/
theorem encode_cmd_goled (hi : (encode i).space = .goled) :
    (encode i).word.cmd = [] ∨ ∃ a b, (encode i).word.cmd = [0x15, a, b] ∨ (encode i).word.cmd = [0x75, a, b] := by
  cases i with
  | goledPixelData b => exact .inl rfl
  | goledSetColumnWindow a b => exact .inr ⟨a, b, .inl rfl⟩
  | goledSetRowWindow a b => exact .inr ⟨a, b, .inr rfl⟩
  | _ => cases hi

/-- In INIT a GOLED command has the bytes of one command of the block (30_encoding R124). -/
theorem encode_cmd_goledInit {c : Config} (hi : (encode i).space = .goledInit) (hc : initCommandOk c i = true) :
    (encode i).word.cmd ∈ c.goledInitBlock := by
  cases i with
  | goledInitBlock bytes => simpa [initCommandOk, encode] using hc
  | _ => cases hi

/-- The command-level bytes of the WOLED space (30_encoding R128). -/
theorem encode_cmd_woled (hi : (encode i).space = .woled) :
    (encode i).word.cmd = [] ∨ (encode i).word.cmd ∈ [[0x20, 0x00], [0xA1], [0xC8], [0xAF]] ∨
      ∃ a b, (encode i).word.cmd = [0x21, a, b] ∨ (encode i).word.cmd = [0x22, a, b] := by
  cases i with
  | woledPixelData b => exact .inl rfl
  | woledSetAddressingModeHorizontal | woledFlipVertical | woledFlipHorizontal | woledDisplayOn =>
    exact .inr (.inl (by decide))
  | woledSetColumnWindow a b => exact .inr (.inr ⟨a, b, .inl rfl⟩)
  | woledSetPageWindow a b => exact .inr (.inr ⟨a, b, .inr rfl⟩)
  | _ => cases hi

/-- The word at which the sequencer stands in a state of the invariant is the code of an instruction of its space; an
initialisation command is one of the block's GOLED_INIT_BLOCK (30_encoding R129). -/
theorem Inv.send_encodes {w : WireWord} (h : Inv s) (hs : s.send = some w) :
    ∃ i, encode i = ⟨wireSpace s, w⟩ ∧ initCommandOk s.cfg i = true := by
  obtain ⟨i, hd⟩ := h.send_decodes hs
  have hsend := h.send w hs
  rw [sendOk, hd] at hsend
  exact ⟨i, encode_of_decode hd, (Bool.and_eq_true_iff.mp hsend).2⟩

/-- Settles O29: the sequencer stands at the code of an instruction of its space. -/
theorem opcodeSetsAreClosed : Obligations.OpcodeSetsAreClosed := by
  unfold Obligations.OpcodeSetsAreClosed
  intro s w h hs
  obtain ⟨i, he, hi⟩ := h.send_encodes hs
  have hspace : (encode i).space = wireSpace s := congrArg Code.space he
  obtain rfl : (encode i).word = w := congrArg Code.word he
  unfold wireSpace at hspace
  refine ⟨fun hv => ?_, fun hv => ⟨fun hm => ?_, fun hm => ?_⟩, fun hv => ?_⟩ <;> rw [hv] at hspace
  · exact encode_cmd_epd hspace
  · exact encode_cmd_goledInit (hspace.trans (if_pos hm)) hi
  · exact encode_cmd_goled (hspace.trans (if_neg hm))
  · exact encode_cmd_woled hspace

end Sys2Proof.Machine
end

section
/-! SUPPORT and PROOFS. The statements of 40_interface_ops about how a request begins: legality by mode (O12), INIT (O19),
the GOLED guard (O38) and CLEAR_FRAME (O40). -/

namespace Sys2Proof.Machine

variable {s : State} {i : Instr}

/-! ### Legality by mode -/

/-- The start of a frame write raises DEGENERATE or nothing (30_encoding R119). -/
theorem startWrite_raising {code : FaultCode} (h : (startWrite s).pos = .raising code) : code = .degenerate := by
  cases hv : s.cfg.variant with
  | epd =>
    rw [startWrite_epd hv] at h
    split at h
    · exact (Pos.raising.inj h).symm
    · cases h
  | goled =>
    rw [startWrite_goled hv] at h
    split at h
    · exact absurd h (writeDone_not_raising code)
    · split at h
      · exact (Pos.raising.inj h).symm
      · cases h
  | woled =>
    rw [startWrite_woled hv] at h
    split at h
    · exact (Pos.raising.inj h).symm
    · cases h

/-- Every request is served from its own fields, INIT alone as INIT, and its start raises no ILLEGAL_STATE. -/
theorem exec_request_serves (hi : (encode i).space = .request) (s : State) :
    ∃ isInit ok go, exec i s = serve isInit (requestLatch i) ok go s ∧ (isInit = true ↔ i = .init) ∧
      ∀ u, (go u).pos ≠ .raising .illegalState := by
  have hwrite : ∀ u : State, (startWrite u).pos ≠ .raising .illegalState := fun u h => nomatch startWrite_raising h
  cases i <;> try contradiction
  all_goals rw [requestLatch, encode, latchOf_descriptor, exec]
  case init => exact ⟨_, _, _, rfl, by simp, fun u => by split <;> nofun⟩
  case setFrameCallback | setFrameBuffer | clearFrame => exact ⟨_, _, _, rfl, by simp, fun u => hwrite _⟩
  case displayFrame | drawText => exact ⟨_, _, _, rfl, by simp, fun u => by split <;> nofun⟩
  all_goals exact ⟨false, true, fun u => { u with pos := .respond _ }, rfl, by simp, fun u => nofun⟩

/-- INIT in IDLE, and any other request in UNINIT, comes to raise ILLEGAL_STATE, latched (40 R162). -/
theorem serve_illegal {isInit ok : Bool} {go : State → State}
    (h : (s.mode = .uninit ∧ isInit = false) ∨ (s.mode = .idle ∧ isInit = true)) (l : Latch) :
    Raises (serve isInit l ok go s) .illegalState { s with latch := l } := by
  have hm : s.mode ≠ .halted := by rcases h with ⟨hm, -⟩ | ⟨hm, -⟩ <;> simp [hm]
  refine ⟨?_, (run_raiseFault _ (by exact hm)).1⟩
  rcases h with ⟨hm, rfl⟩ | ⟨hm, rfl⟩ <;> simp [serve, hm]

/-- INIT in UNINIT, and any other request in IDLE, begins or raises ILLEGAL_ARGUMENT (40 R162; 30_encoding R119). -/
theorem serve_legal {isInit ok : Bool} {go : State → State}
    (h : (s.mode = .uninit ∧ isInit = true) ∨ (s.mode = .idle ∧ isInit = false)) (l : Latch)
    (hgo : ∀ u, (go u).pos ≠ .raising .illegalState) :
    ∃ t, serve isInit l ok go s = .next t ∧ t.pos ≠ .raising .illegalState := by
  rcases serve_cases isInit l ok go s with ⟨-, e⟩ | ⟨hbad, -⟩ | ⟨-, -, -, e⟩ | ⟨hu, hi, -⟩
  · exact ⟨_, e, hgo _⟩
  · rcases h with ⟨hm, rfl⟩ | ⟨hm, rfl⟩ <;> simp [hm] at hbad
  · exact ⟨_, e, nofun⟩
  · exact absurd (h.imp And.left And.left) (not_or.mpr ⟨hu, hi⟩)

/-- Settles O12: a request is served as INIT exactly where it is INIT. -/
theorem illegalStateByMode : Obligations.IllegalStateByMode := by
  unfold Obligations.IllegalStateByMode
  intro s i hi
  obtain ⟨isInit, ok, go, e, hinit, hgo⟩ := exec_request_serves (eq_of_beq hi) s
  have hother : isInit = false ↔ i ≠ .init := by rw [← Bool.not_eq_true, hinit]
  rw [e]
  refine ⟨fun hm hne => serve_illegal (.inl ⟨hm, hother.mpr hne⟩) _,
    fun hm hin => serve_illegal (.inr ⟨hm, hinit.mpr hin⟩) _, fun hlegal => serve_legal ?_ _ hgo⟩
  exact hlegal.imp (And.imp_right hinit.mpr) (And.imp_right hother.mpr)

/-! ### INIT -/

/-- INIT begins in UNINIT (40 R162). -/
theorem serve_uninit (hm : s.mode = .uninit) (l : Latch) (go : State → State) :
    serve true l true go s = .next (go { s with latch := l }) := by
  simp [serve, hm]

/-- Settles O19: on each variant INIT begins at the first event of its pseudocode. -/
theorem initBegins : Obligations.InitBegins := by
  unfold Obligations.InitBegins
  intro s hm
  refine ⟨fun hv => ?_, fun hv => ?_, fun hv => ?_⟩ <;> simp only [exec, execInit, serve_uninit hm, hv]

/-! ### The GOLED guard -/

/-- A guarded write from the host's source ends at once, in IDLE (42_gray_oled R261). -/
theorem startWrite_goled_guarded {x y w h : Nat} (hv : s.cfg.variant = .goled) (hwin : window s = ⟨x, y, w, h⟩)
    (hsrc : s.src = .callback ∨ s.src = .buffer) (hg : 128 ≤ x ∨ 128 < y ∨ w < 2 ∨ h = 0) :
    startWrite s = finishRequest s := by
  rw [startWrite_goled hv, hwin, if_pos ((goledGuard_iff x y w h).mpr hg)]
  rcases hsrc with hsrc | hsrc <;> rw [writeDone, hsrc]

/-- Settles O38: both requests end where they begin, and MODE stays IDLE. -/
theorem goledGuardIsANoOp : Obligations.GoledGuardIsANoOp := by
  unfold Obligations.GoledGuardIsANoOp
  intro s x y w h hm hv hx hy hguard
  have hg : 128 ≤ x.toNat ∨ 128 < y.toNat ∨ w.toNat < 2 ∨ h.toNat = 0 := by omega
  rw [exec_setFrameCallback_idle hm hx hy, exec_setFrameBuffer_idle hm hx hy,
    startWrite_goled_guarded (by exact hv) rfl (.inl rfl) hg, startWrite_goled_guarded (by exact hv) rfl (.inr rfl) hg]
  simp only [finishRequest, hm, and_self]

/-! ### CLEAR_FRAME -/

/-- Settles O40: the window is the panel, whose ends fit a byte on every variant. -/
theorem clearFrameBegins : Obligations.ClearFrameBegins := by
  unfold Obligations.ClearFrameBegins
  intro s c hm hc latched
  have hwin := window_clearStart c s
  rw [exec_clearFrame_idle hm hc]
  refine ⟨fun hv => ?_, fun hv => ?_, fun hv => ?_⟩ <;> rw [hv] at hwin
  · rw [startWrite_epd_begins (s := clearStart c s) (x := 0) (y := 0) hv hwin (.inr (by decide))]
    rfl
  · rw [startWrite_goled_begins (s := clearStart c s) (x := 0) (y := 0) hv hwin (by decide) (.inr (by decide))]
    rfl
  · rw [startWrite_woled_begins (s := clearStart c s) (x := 0) (y := 0) hv hwin (.inr (by decide))]
    rfl

end Sys2Proof.Machine
end

section
/-! SUPPORT and PROOFS. A buffer write and the callback write beside it: the same state but for the opcode in the latch and
the pixel source, kept step for step until a query leaves the buffer (O47). -/

namespace Sys2Proof.Machine

variable {l : Latch} {p : Ports} {s t u : State} {o : Host.Outcome State Fault Refusal}

/-! ### A fault that is taken stays taken -/

/-- The events of `raise Fault(code)` have begun: Diag is out and Halt is next, or the block halted with that code. -/
def Taken (code : FaultCode) (s : State) : Prop :=
  (s.mode = .halted ∧ s.haltCause = some code) ∨ (s.pos = .halting code ∧ s.bus = [] ∧ s.send = none)

theorem takeFault_taken (code : FaultCode) (s : State) : Taken code (takeFault code s) := by
  rcases takeFault_cases code s with ⟨-, e⟩ | ⟨-, e⟩ <;> rw [e]
  · exact .inr ⟨rfl, rfl, rfl⟩
  · exact .inl ⟨rfl, rfl⟩

/-- After Diag comes Halt, and after Halt nothing (10_state R41; 60_exceptions R366). -/
theorem Taken.step {code : FaultCode} (h : Taken code s) (ht : step s = .next t) : Taken code t := by
  by_cases hm : s.mode = .halted
  · rw [Machine.step, if_pos hm] at ht
    exact Host.Outcome.next.inj ht ▸ h
  · obtain ⟨hp, hb, hs⟩ := h.resolve_left fun hh => hm hh.1
    rw [step_point hm hb hs (by simp [hp]), seqStep, hp] at ht
    exact Host.Outcome.next.inj ht ▸ .inl ⟨rfl, rfl⟩

/-- A run of one step more that answers a state: its first step does, and so does the rest. -/
theorem run_succ_next {n : Nat} (h : Sys2Proof.core.run (n + 1) s = .next u) :
    ∃ t, step s = .next t ∧ Sys2Proof.core.run n t = .next u := by
  cases hs : step s with
  | next t => exact ⟨t, rfl, (run_succ n hs).symm.trans h⟩
  | fault f => exact absurd ((run_fault hs n).symm.trans h) nofun
  | refused f =>
    have hs' : Sys2Proof.core.step s = .refused f := hs
    simp only [Host.Core.run, hs', reduceCtorEq] at h

/-- A fault that is taken is the one the run ends with. -/
theorem Taken.run {code : FaultCode} (h : Taken code s) {n : Nat} (hr : Sys2Proof.core.run n s = .next u) :
    Taken code u := by
  induction n generalizing s with
  | zero => exact Host.Outcome.next.inj hr ▸ h
  | succ n ih =>
    obtain ⟨t, ht, hr⟩ := run_succ_next hr
    exact ih (h.step ht) hr

/-! ### The state beside -/

/-- A state with the opcode of SET_FRAME_CALLBACK in its latch and another pixel source. -/
def twin (src : PixSource) (s : State) : State := { s with latch := { s.latch with op := 0x02 }, src := src }

section Twin

variable (src : PixSource) (s : State)

@[simp] theorem twin_cfg : (twin src s).cfg = s.cfg := rfl
@[simp] theorem twin_mode : (twin src s).mode = s.mode := rfl
@[simp] theorem twin_text : (twin src s).text = s.text := rfl
@[simp] theorem twin_pos : (twin src s).pos = s.pos := rfl
@[simp] theorem twin_send : (twin src s).send = s.send := rfl
@[simp] theorem twin_bus : (twin src s).bus = s.bus := rfl
@[simp] theorem twin_src : (twin src s).src = src := rfl
@[simp] theorem twin_ports : (twin src s).ports = s.ports := rfl
@[simp] theorem twin_busyIn : (twin src s).busyIn = s.busyIn := rfl

theorem oracleFails_twin : oracleFails (twin src s) = oracleFails s := rfl

end Twin

/-- What a request works from, and no step but an acceptance changes while the host disturbs nothing: the latch and the
bindings, with no further request presented. -/
def HeldIn (l : Latch) (p : Ports) (latch : Latch) (ports : Ports) (host : List HostRequest) (changed : List Bool) : Prop :=
  latch = l ∧ ports = p ∧ host = [] ∧ changed = []

/-- A state of a request with latch `l` and bindings `p`. -/
abbrev Held (l : Latch) (p : Ports) (s : State) : Prop := HeldIn l p s.latch s.ports s.host s.changed

/-- `t` is `s` with the opcode of SET_FRAME_CALLBACK, and with the pixel function in place of the buffer where `s` has the
buffer as its source. -/
inductive Beside (l : Latch) (p : Ports) : State → State → Prop
  | intro {s : State} {src : PixSource} (hsrc : src = s.src ∨ (s.src = .buffer ∧ src = .callback))
      (hheld : Held l p s) : Beside l p s (twin src s)

/-- The pixel function equals the buffer wherever the adapter of the latched window answers (40 R167). -/
def Agree (l : Latch) (p : Ports) : Prop :=
  ∀ px py i c, adapterIndex ⟨l.x.toNat, l.y.toNat, l.w.toNat, l.h.toNat⟩ p.buf.length px py = some i →
    p.buf[i]? = some c → pixelFnAt p.f px py = c

/-- Whatever state `o` answers, `o'` answers one beside it; or the write has left its buffer. -/
def Follows (l : Latch) (p : Ports) (o o' : Host.Outcome State Fault Refusal) : Prop :=
  ∀ u, o = .next u → Taken .adapterRange u ∨ ∃ v, o' = .next v ∧ Beside l p u v

theorem Beside.follows (h : Beside l p s t) : Follows l p (.next s) (.next t) := fun _ hu =>
  .inr ⟨t, rfl, Host.Outcome.next.inj hu ▸ h⟩

theorem follows_fault {f : Fault} : Follows l p (.fault f) o := fun _ hu => nomatch hu

theorem follows_refused {r : Refusal} : Follows l p (.refused r) o := fun _ hu => nomatch hu

/-- Both states branch alike. -/
theorem Beside.ite {c : Prop} [Decidable c] {s' t' : State} (h : Beside l p s t) (h' : Beside l p s' t') :
    Beside l p (if c then s else s') (if c then t else t') := by
  split
  · exact h
  · exact h'

/-- Both requests write the same window (40 R166). -/
theorem Beside.window_eq (h : Beside l p s t) : window t = window s := by
  cases h with
  | intro hsrc _ =>
    rcases hsrc with rfl | ⟨hbuf, rfl⟩
    · rfl
    · simp only [window, twin, hbuf]

/-- Where the buffer's adapter answers, the pixel function answers the same; another source is the same in both. -/
theorem Beside.pix_eq {px py : Int} {c : Color} (h : Beside l p s t) (ha : Agree l p) (hc : pix s px py = some c) :
    pix t px py = some c := by
  cases h with
  | intro hsrc hheld =>
    rcases hsrc with rfl | ⟨hbuf, rfl⟩
    · exact hc
    · obtain ⟨rfl, rfl, -, -⟩ := hheld
      rw [pix_buffer hbuf, Option.bind_eq_some_iff] at hc
      obtain ⟨i, hi, hci⟩ := hc
      simp only [window, hbuf] at hi
      exact congrArg some (ha px py i c hi hci)

/-! ### Moves -/

theorem Beside.finishRequest (h : Beside l p s t) : Beside l p (finishRequest s) (finishRequest t) := by
  cases h with
  | intro hsrc hheld => exact ⟨hsrc, hheld⟩

theorem Beside.nextChar (h : Beside l p s t) : Beside l p (nextChar s) (nextChar t) := by
  cases h with
  | intro hsrc hheld => exact .ite ⟨hsrc, hheld⟩ ⟨hsrc, hheld⟩

/-- A frame write ends alike over the buffer and over the pixel function. -/
theorem Beside.writeDone (h : Beside l p s t) : Beside l p (writeDone s) (writeDone t) := by
  have hnext := h.nextChar
  have hfinish := h.finishRequest
  cases h with
  | @intro src hsrc _ =>
    unfold Machine.writeDone
    rw [twin_src]
    rcases hsrc with rfl | ⟨hbuf, rfl⟩
    · split
      · exact hnext
      all_goals exact hfinish
    · rw [hbuf]
      exact hfinish

theorem Beside.epdRowOrEnd (h : Beside l p s t) (j : Int) : Beside l p (epdRowOrEnd j s) (epdRowOrEnd j t) := by
  have hdone := h.writeDone
  cases h with
  | intro hsrc hheld => exact .ite ⟨hsrc, hheld⟩ hdone

theorem Beside.epdGroupOrRow (h : Beside l p s t) (g : Int) : Beside l p (epdGroupOrRow g s) (epdGroupOrRow g t) := by
  have hrow := h.epdRowOrEnd (s.epd.j + 1)
  cases h with
  | intro hsrc hheld => exact .ite ⟨hsrc, hheld⟩ hrow

theorem Beside.goledRowOrEnd (h : Beside l p s t) (r : Int) : Beside l p (goledRowOrEnd r s) (goledRowOrEnd r t) := by
  have hdone := h.writeDone
  cases h with
  | intro hsrc hheld => exact .ite ⟨hsrc, hheld⟩ hdone

theorem Beside.goledNext (h : Beside l p s t) : Beside l p (goledNext s) (goledNext t) := by
  have hrow := h.goledRowOrEnd (s.goled.r + 1)
  cases h with
  | intro hsrc hheld => exact .ite ⟨hsrc, hheld⟩ hrow

theorem Beside.woledPageOrEnd (h : Beside l p s t) (pg : Int) : Beside l p (woledPageOrEnd pg s) (woledPageOrEnd pg t) := by
  have hdone := h.writeDone
  have hwin := h.window_eq
  cases h with
  | intro hsrc hheld =>
    unfold Machine.woledPageOrEnd
    rw [hwin]
    exact .ite ⟨hsrc, hheld⟩ hdone

theorem Beside.woledNext (h : Beside l p s t) : Beside l p (woledNext s) (woledNext t) := by
  have hpage := h.woledPageOrEnd (s.woled.p + 1)
  cases h with
  | intro hsrc hheld => exact .ite ⟨hsrc, hheld⟩ hpage

/-- A write starts alike: the two windows are one. -/
theorem Beside.startWrite (h : Beside l p s t) : Beside l p (startWrite s) (startWrite t) := by
  have hdone := h.writeDone
  have hwin := h.window_eq
  cases h with
  | @intro src hsrc hheld =>
    cases hv : s.cfg.variant with
    | epd =>
      rw [startWrite_epd hv, startWrite_epd (s := twin src s) hv, hwin]
      exact .ite ⟨hsrc, hheld⟩ ⟨hsrc, hheld⟩
    | goled =>
      rw [startWrite_goled hv, startWrite_goled (s := twin src s) hv, hwin]
      exact .ite hdone (.ite ⟨hsrc, hheld⟩ ⟨hsrc, hheld⟩)
    | woled =>
      rw [startWrite_woled hv, startWrite_woled (s := twin src s) hv, hwin]
      exact .ite ⟨hsrc, hheld⟩ ⟨hsrc, hheld⟩

theorem Beside.epdInitNext (h : Beside l p s t) (rest : List InitAction) :
    Beside l p (epdInitNext rest s) (epdInitNext rest t) := by
  cases h with
  | intro hsrc hheld => unfold Machine.epdInitNext; split <;> exact ⟨hsrc, hheld⟩

theorem Beside.goledInitNext (h : Beside l p s t) (rest : List (List Byte)) :
    Beside l p (goledInitNext rest s) (goledInitNext rest t) := by
  cases h with
  | intro hsrc hheld => unfold Machine.goledInitNext; split <;> exact ⟨hsrc, hheld⟩

theorem Beside.woledInitNext (h : Beside l p s t) (rest : List (List Byte)) :
    Beside l p (woledInitNext rest s) (woledInitNext rest t) := by
  cases h with
  | intro hsrc hheld => unfold Machine.woledInitNext; split <;> exact ⟨hsrc, hheld⟩

/-- The sequencer moves on alike from every position. -/
theorem Beside.resume (h : Beside l p s t) : Beside l p (resume s) (resume t) := by
  have hall := h
  have hwin := h.window_eq
  cases h with
  | @intro src hsrc hheld =>
    unfold Machine.resume
    rw [hwin, twin_pos]
    cases s.pos
    case epdInit rest => exact hall.epdInitNext rest
    case epdRows => exact hall.epdRowOrEnd _
    case epdGroups | epdNextGroup => exact hall.epdGroupOrRow _
    case goledBlock rest => exact hall.goledInitNext rest
    case goledRows => exact hall.goledRowOrEnd _
    case goledNextPair => exact hall.goledNext
    case woledInit rest => exact hall.woledInitNext rest
    case woledPages => exact hall.woledPageOrEnd _
    case woledNextColumn => exact hall.woledNext
    case epdYWindow | epdYPointer | epdPointerSet | goledRowWindow | woledPageWindow => exact ⟨hsrc, hheld⟩
    all_goals exact hall

/-! ### Events -/

theorem Beside.takeFault (h : Beside l p s t) (code : FaultCode) : Beside l p (takeFault code s) (takeFault code t) := by
  cases h with
  | intro hsrc hheld => exact .ite ⟨hsrc, hheld⟩ ⟨hsrc, hheld⟩

/-- The oracle answers both alike, and a failing pin operation takes the same fault in both. -/
theorem Beside.pinOp {k : State → State} (h : Beside l p s t)
    (hk : ∀ {s t}, Beside l p s t → Beside l p (k s) (k t)) : Beside l p (pinOp s k) (pinOp t k) := by
  have hfault := h.takeFault
  cases h with
  | @intro src hsrc hheld =>
    unfold Machine.pinOp
    rw [oracleFails_twin]
    split
    · exact hfault _
    · exact hk ⟨hsrc, hheld⟩

theorem Beside.busOp {k : State → Host.Outcome State Fault Refusal} (h : Beside l p s t)
    (hk : ∀ {s t}, Beside l p s t → Follows l p (k s) (k t)) : Follows l p (busOp s k) (busOp t k) := by
  have hfault := h.takeFault
  cases h with
  | @intro src hsrc hheld =>
    unfold Machine.busOp
    rw [oracleFails_twin]
    split
    · exact (hfault _).follows
    · exact hk ⟨hsrc, hheld⟩

theorem Beside.settle (h : Beside l p s t) : Beside l p (settle s) (settle t) := by
  have hresume := h.resume
  cases h with
  | @intro src hsrc hheld =>
    unfold Machine.settle
    rw [twin_bus, twin_send]
    split
    · exact hresume
    · exact ⟨hsrc, hheld⟩

theorem Beside.emit (h : Beside l p s t) (e : Event) : Beside l p (emit e s) (emit e t) := by
  cases h with
  | intro hsrc hheld => exact ⟨hsrc, hheld⟩

theorem Beside.driveDc (h : Beside l p s t) (v : DcLevel) : Beside l p (driveDc v s) (driveDc v t) := by
  cases h with
  | intro hsrc hheld => exact ⟨hsrc, hheld⟩

theorem Beside.driveCs (h : Beside l p s t) (v : CsLevel) : Beside l p (driveCs v s) (driveCs v t) := by
  cases h with
  | intro hsrc hheld => exact ⟨hsrc, hheld⟩

theorem Beside.driveRst (h : Beside l p s t) (v : Level) : Beside l p (driveRst v s) (driveRst v t) := by
  cases h with
  | intro hsrc hheld => exact ⟨hsrc, hheld⟩

theorem Beside.withPos (h : Beside l p s t) (q : Pos) : Beside l p { s with pos := q } { t with pos := q } := by
  cases h with
  | intro hsrc hheld => exact ⟨hsrc, hheld⟩

theorem Beside.withBus (h : Beside l p s t) (w : Option WireWord) (ops : List BusOp) :
    Beside l p { s with send := w, bus := ops } { t with send := w, bus := ops } := by
  cases h with
  | intro hsrc hheld => exact ⟨hsrc, hheld⟩

/-- A byte goes to the same unit of the panel in both, or to none. -/
theorem Beside.transfer (h : Beside l p s t) (b : Byte) (dest : Option (Int × Int)) :
    Follows l p (settleAfter (transfer b dest s)) (settleAfter (transfer b dest t)) := by
  cases dest with
  | none => exact (h.emit (.xfer b)).settle.follows
  | some d =>
    cases h with
    | @intro src hsrc hheld =>
      unfold Machine.transfer
      dsimp only [twin_cfg]
      cases fmAddr s.cfg.variant d with
      | none => exact follows_fault
      | some a =>
        have hstored (m : List Host.Cell) : Beside l p { s with fm := m } (twin src { s with fm := m }) := ⟨hsrc, hheld⟩
        exact ((hstored (Memory.write s.fm a b)).emit (.xfer b)).settle.follows

/-- The next operation on the bus is the same in both. -/
theorem Beside.driveBus (h : Beside l p s t) : Follows l p (driveBus s) (driveBus t) := by
  have hrest := h.withBus
  cases h with
  | @intro src hsrc hheld =>
    unfold Machine.driveBus
    rw [twin_bus]
    split
    · exact Beside.follows ⟨hsrc, hheld⟩
    · exact ((hrest s.send _).pinOp fun h => (h.driveDc _).settle).follows
    · exact ((hrest s.send _).pinOp fun h => (h.driveCs _).settle).follows
    · exact (hrest s.send _).busOp fun h => h.transfer _ _

theorem Beside.issue (h : Beside l p s t) (v : Variant) (ops : List BusOp) :
    Follows l p (issue v ops s) (issue v ops t) := by
  have hdrive := (h.withBus none (s.bus ++ ops)).driveBus
  cases h with
  | @intro src hsrc hheld =>
    unfold Machine.issue
    rw [twin_mode, twin_cfg]
    split
    · exact Beside.follows ⟨hsrc, hheld⟩
    · split
      · exact hdrive
      · exact follows_refused

/-- A wire command has the same operations in both: they come from its operands and the unit's registers. -/
theorem Beside.exec_wire {i : Instr} (h : Beside l p s t) (hi : (encode i).space ≠ .request) :
    Follows l p (exec i s) (exec i t) := by
  have hall := h
  cases h with
  | intro _ _ =>
    cases i
    case init | setFrameCallback | setFrameBuffer | clearFrame | displayFrame | drawText | rdWidth | rdHeight | rdPpb
      | rdLight | rdDark => exact absurd rfl hi
    all_goals exact hall.issue _ _

/-! ### Reads -/

/-- A query answers both the same Color, or it leaves the buffer (20_memory R73). -/
theorem Beside.query {px py : Int} {k : Color → State → State} (h : Beside l p s t) (ha : Agree l p)
    (hk : ∀ c, Beside l p (k c s) (k c t)) : Follows l p (.next (query px py s k)) (.next (query px py t k)) := by
  cases hc : pix s px py with
  | none =>
    rw [query_none hc]
    exact fun u hu => .inl (Host.Outcome.next.inj hu ▸ takeFault_taken _ _)
  | some c =>
    have hct := h.pix_eq ha hc
    have hkc := hk c
    cases h with
    | @intro src hsrc hheld =>
      obtain ⟨-, -, -, hch⟩ := hheld
      rw [query_stable hch hc, query_stable (s := twin src s) hch hct]
      exact hkc.follows

theorem Beside.epdReadPixel (h : Beside l p s t) (ha : Agree l p) :
    Follows l p (.next (epdReadPixel s)) (.next (epdReadPixel t)) := by
  have hall := h
  cases h with
  | intro hsrc hheld => exact hall.query ha fun _ => .ite ⟨hsrc, hheld⟩ ⟨hsrc, hheld⟩

theorem Beside.goledReadLeft (h : Beside l p s t) (ha : Agree l p) :
    Follows l p (.next (goledReadLeft s)) (.next (goledReadLeft t)) := by
  have hall := h
  cases h with
  | intro hsrc hheld => exact hall.query ha fun _ => ⟨hsrc, hheld⟩

theorem Beside.goledReadRight (h : Beside l p s t) (ha : Agree l p) :
    Follows l p (.next (goledReadRight s)) (.next (goledReadRight t)) := by
  have hall := h
  cases h with
  | intro hsrc hheld => exact hall.query ha fun _ => ⟨hsrc, hheld⟩

theorem Beside.woledReadPixel (h : Beside l p s t) (ha : Agree l p) :
    Follows l p (.next (woledReadPixel s)) (.next (woledReadPixel t)) := by
  have hall := h
  cases h with
  | intro hsrc hheld => exact hall.query ha fun _ => .ite ⟨hsrc, hheld⟩ ⟨hsrc, hheld⟩

theorem Beside.readChar (h : Beside l p s t) : Beside l p (readChar s) (readChar t) := by
  cases h with
  | @intro src hsrc hheld =>
    unfold Machine.readChar strRead
    rw [twin_ports, twin_text]
    obtain ⟨hl, hp, hh, hch⟩ := hheld
    split
    · rw [hostRead_stable hch, hostRead_stable (s := twin src s) hch]
      exact ⟨hsrc, hl, hp, hh, hch⟩
    · exact ⟨hsrc, hl, hp, hh, congrArg List.tail hch⟩

theorem Beside.readGlyph (h : Beside l p s t) : Beside l p (readGlyph s) (readGlyph t) := by
  cases h with
  | @intro src hsrc hheld =>
    obtain ⟨hl, hp, hh, hch⟩ := hheld
    unfold Machine.readGlyph
    rw [glyphRead_stable hch, glyphRead_stable (s := twin src s) hch]
    exact .ite ⟨hsrc, hl, hp, hh, hch⟩
      (.ite ⟨hsrc, hl, hp, hh, hch⟩ (Beside.startWrite (.intro (.inl rfl) ⟨hl, hp, hh, hch⟩)))

/-! ### The event or read at a point -/

theorem Beside.waitDone (h : Beside l p s t) (site : WaitSite) : Beside l p (waitDone site s) (waitDone site t) := by
  have hat := h.withPos
  cases h with
  | intro hsrc hheld =>
    cases site with
    | init rest => exact (hat (.epdInit rest)).resume
    | pointer => exact ⟨hsrc, hheld⟩
    | commit => exact ⟨hsrc, hheld⟩

theorem Beside.busyNext (h : Beside l p s t) : Beside l p (busyNext s) (busyNext t) := by
  cases h with
  | @intro src hsrc hheld =>
    unfold Machine.busyNext
    rw [twin_busyIn]
    split <;> exact ⟨hsrc, hheld⟩

/-- Both sample the same level of the busy input, and poll or go on. -/
theorem Beside.sample (h : Beside l p s t) (site : WaitSite) :
    Beside l p
      (if busyAsserted s then { sampleBusy s with pos := .poll site } else Machine.waitDone site (sampleBusy s))
      (if busyAsserted t then { sampleBusy t with pos := .poll site } else Machine.waitDone site (sampleBusy t)) := by
  have hsampled := (h.emit (.busySample (busyAsserted s))).busyNext
  have hpoll := hsampled.withPos (.poll site)
  have hdone := hsampled.waitDone site
  cases h with
  | intro _ _ => exact .ite hpoll hdone

/-- The event or read at a point is the same in both, or it is a query that leaves the buffer. -/
theorem Beside.seqStep (h : Beside l p s t) (ha : Agree l p) : Follows l p (.next (seqStep s)) (.next (seqStep t)) := by
  have hall := h
  cases h with
  | @intro src hsrc hheld =>
    have hdelay (m : Mode) (ms : Nat) : Beside l p (Machine.emit (.delay ms) { s with mode := m })
        (Machine.emit (.delay ms) { twin src s with mode := m }) := ⟨hsrc, hheld⟩
    unfold Machine.seqStep
    rw [twin_pos]
    cases s.pos
    case idle => exact hall.follows
    case raising code => exact (hall.takeFault code).follows
    case halting code => exact Beside.follows ⟨hsrc, hheld⟩
    case respond v => exact (hall.emit _).finishRequest.follows
    case resetLow | resetHigh => exact (hall.pinOp fun h => (h.driveRst _).withPos _).follows
    case resetHold | poll | woledDelay1 => exact ((hall.emit _).withPos _).follows
    case resetSettle => exact ((hdelay _ _).epdInitNext _).follows
    case pause ms rest => exact ((hall.emit _).epdInitNext rest).follows
    case sample site => exact (hall.pinOp fun h => h.sample site).follows
    case epdPixel => exact hall.epdReadPixel ha
    case goledPre => exact ((hall.emit _).goledInitNext _).follows
    case goledPost => exact (hall.emit _).finishRequest.follows
    case goledLeft => exact hall.goledReadLeft ha
    case goledRight => exact hall.goledReadRight ha
    case woledDelay2 => exact ((hall.emit _).woledInitNext _).follows
    case woledPixel => exact hall.woledReadPixel ha
    case readChar => exact hall.readChar.follows
    case readGlyph => exact hall.readGlyph.follows
    all_goals exact hall.resume.follows

/-! ### Steps and runs -/

/-- With the bus free and no command due, a step is the event or read at the point where no request is presented. -/
theorem step_unpresented (hm : s.mode ≠ .halted) (hb : s.bus = []) (hs : s.send = none) (hh : s.host = []) :
    step s = .next (Machine.seqStep s) := by
  by_cases hp : s.pos = .idle
  · rw [step_wait hb hs hp fun hn => hn.2 hh, Machine.seqStep, hp]
  · exact step_point hm hb hs hp

/-- A wire command is in no request's opcode space (30_encoding R123). -/
theorem wireSpace_ne_request (s : State) : wireSpace s ≠ .request := by
  unfold wireSpace
  split
  · nofun
  · split <;> nofun
  · nofun

/-- Bytes of a wire that are no command of its set are refused (30_encoding R129; log 13). -/
theorem reject_wire {c : Code} (hc : c.space ≠ .request) (s : State) : reject c s = .refused .undefinedWireCommand := by
  unfold reject
  split
  · next h => exact absurd h hc
  all_goals rfl

/-- A step that finds such bytes due is refused. -/
theorem step_undecoded {w : WireWord} {e : DecodeError} (hm : s.mode ≠ .halted) (hb : s.bus = []) (hs : s.send = some w)
    (hd : decode ⟨wireSpace s, w⟩ = .error e) : step s = .refused .undefinedWireCommand := by
  have hf : fetch s = some (⟨wireSpace s, w⟩, s) := by simp [fetch, hb, hs]
  simp only [step, if_neg hm, hf, hd]
  exact reject_wire (wireSpace_ne_request s) s

/-- Step for step the two requests do the same, until a query leaves the buffer. -/
theorem Beside.step (h : Beside l p s t) (ha : Agree l p) : Follows l p (step s) (step t) := by
  have hall := h
  cases h with
  | @intro src hsrc hheld =>
    by_cases hm : s.mode = .halted
    · rw [Machine.step, if_pos hm, Machine.step, if_pos (by exact hm)]
      exact hall.follows
    by_cases hb : s.bus = []
    swap
    · rw [step_bus hm hb, step_bus (s := twin src s) hm hb]
      exact hall.driveBus
    cases hs : s.send with
    | none =>
      obtain ⟨-, -, hhost, -⟩ := hheld
      rw [step_unpresented hm hb hs hhost, step_unpresented (s := twin src s) hm hb hs hhost]
      exact hall.seqStep ha
    | some w =>
      cases hd : decode ⟨wireSpace s, w⟩ with
      | error e =>
        rw [step_undecoded hm hb hs hd]
        exact follows_refused
      | ok i =>
        rw [step_send hm hb hs hd, step_send (s := twin src s) hm hb hs hd]
        exact hall.exec_wire (decode_space hd ▸ wireSpace_ne_request s)

/-- A run of a buffer write that never leaves its buffer has a run of the callback write beside it. -/
theorem Beside.run (h : Beside l p s t) (ha : Agree l p) {n : Nat} (hr : Sys2Proof.core.run n s = .next u)
    (hin : ¬ Taken .adapterRange u) : ∃ v, Sys2Proof.core.run n t = .next v ∧ Beside l p u v := by
  induction n generalizing s t with
  | zero => exact ⟨t, rfl, Host.Outcome.next.inj hr ▸ h⟩
  | succ n ih =>
    obtain ⟨s', hs', hr⟩ := run_succ_next hr
    rcases h.step ha s' hs' with htaken | ⟨t', ht', h'⟩
    · exact absurd (htaken.run hr) hin
    · rw [run_succ n ht']
      exact ih h' hr

/-! ### The two requests -/

/-- The two requests pass or fail check (3) alike, and begin alike (40 R165, R166). -/
theorem exec_setFrameBuffer_beside {x y w h : Half} (hm : s.mode = .idle) (hh : s.host = []) (hc : s.changed = [])
    (ht : exec (.setFrameBuffer x y w h) s = .next t) :
    ∃ t', exec (.setFrameCallback x y w h) s = .next t' ∧ Beside ⟨0x03, 0, 0, 0, x, y, w, h⟩ s.ports t t' := by
  have hheld : HeldIn ⟨0x03, 0, 0, 0, x, y, w, h⟩ s.ports ⟨0x03, 0, 0, 0, x, y, w, h⟩ s.ports s.host s.changed :=
    ⟨rfl, rfl, hh, hc⟩
  simp only [exec, execSetFrameBuffer, execSetFrameCallback] at ht ⊢
  cases hok : windowLimitOk x y w h with
  | true =>
    rw [hok, serve_idle hm] at ht
    rw [serve_idle hm, ← Host.Outcome.next.inj ht]
    exact ⟨_, rfl, Beside.startWrite (.intro (.inr ⟨rfl, rfl⟩) hheld)⟩
  | false =>
    have hrefused (l : Latch) (go : State → State) :
        serve false l false go s = .next (raiseFault .illegalArgument { s with latch := l }) := (serve_refuses hm rfl l go).1
    rw [hok, hrefused] at ht
    rw [hrefused, ← Host.Outcome.next.inj ht]
    exact ⟨_, rfl, .intro (.inl rfl) hheld⟩

/-- Settles O47: the callback write runs beside the buffer write, from the step that accepts it to every later state in
which the buffer has not been left. -/
theorem bufferWriteEqualsCallbackWrite : Obligations.BufferWriteEqualsCallbackWrite := by
  unfold Obligations.BufferWriteEqualsCallbackWrite
  intro s x y w h n t u hm _ _ hh hc hagree ht hr hcause hpos
  obtain ⟨t', ht', hbeside⟩ := exec_setFrameBuffer_beside hm hh hc ht
  have hin : ¬ Taken .adapterRange u := not_or.mpr ⟨fun htaken => hcause htaken.2, fun htaken => hpos htaken.1⟩
  obtain ⟨u', hr', hu⟩ := hbeside.run hagree hr hin
  cases hu with
  | intro _ _ => exact ⟨t', _, ht', hr', rfl, rfl, rfl, fun _ => rfl⟩

end Sys2Proof.Machine
end

section
/-! SUPPORT and PROOFS. The statements of 41_epaper: busy waits (O48), the visible image (O52) and the column packer
(O33). -/

namespace Sys2Proof.Machine

variable {s t : State}

/-! ### Busy waits -/

/-- Settles O48: the polls, and the clear sample where there is one. -/
theorem busyWaitPolls : Obligations.BusyWaitPolls := by
  unfold Obligations.BusyWaitPolls
  intro s site n rest hm hp hb hs hq
  exact ⟨run_waitBusy hm hp hb hs n hq, run_polls hm hp hb hs n (quiet_mono (Nat.le_succ n) hq)⟩

/-! ### The visible image -/

theorem visible_epd (hv : s.cfg.variant = .epd) : visible s = s.vis := by
  rw [visible, hv]

theorem visible_oled (hv : s.cfg.variant ≠ .epd) : visible s = s.fm := by
  cases e : s.cfg.variant with
  | epd => exact absurd e hv
  | goled | woled => rw [visible, e]

theorem EventOf.vis (h : EventOf s t) : t.vis = s.vis := by
  cases h with
  | sample site hp => exact sampleBusy_vis _
  | _ => rfl

theorem OneEvent.vis (h : OneEvent s t) : t.vis = s.vis := by
  rcases h with ⟨u, hu, hk⟩ | ⟨code, u, hk, rfl⟩ | ⟨code, -, rfl⟩
  · exact hk.vis.trans hu.vis
  · exact (takeFault_vis code u).trans hk.vis
  · rfl

/-- What a step does to VIS_E: nothing, or at the clear sample of a commit it becomes frame memory (41_epaper R240, R241). -/
theorem step_vis (ht : step s = .next t) :
    t.vis = s.vis ∨
    (s.pos = .sample .commit ∧ t.mode = .idle ∧ t.trace = s.trace ++ [.busySample false] ∧ t.vis = t.fm) := by
  rcases step_cases ht with ⟨rfl, -⟩ | ⟨-, -, -, -, hk⟩ | ⟨-, -, -, -, r, rest, -, hk⟩ | ⟨-, he⟩ | ⟨-, hp, hclear, rfl⟩
  · exact .inl rfl
  · exact .inl hk.vis
  · exact .inl hk.vis
  · exact .inl he.vis
  · exact .inr ⟨hp, rfl, hclear ▸ sampleBusy_trace { s with ops := s.ops + 1 },
      (sampleBusy_fm { s with ops := s.ops + 1 }).symm⟩

/-- Settles O52: of all a step can do, only the end of a commit's wait writes VIS_E. -/
theorem visibleImageChangesOnlyAtCommit : Obligations.VisibleImageChangesOnlyAtCommit := by
  unfold Obligations.VisibleImageChangesOnlyAtCommit
  intro s t ht
  rw [← step_cfg ht]
  refine ⟨fun hv => ?_, visible_oled⟩
  rw [visible_epd hv, visible_epd (step_cfg ht ▸ hv)]
  exact (step_vis ht).imp (fun hkept _ => by rw [hkept])
    fun ⟨hp, hm, htrace, hvis⟩ => ⟨hp, hm, htrace, fun _ => by rw [hvis]⟩

/-! ### The column packer -/

section Group

variable {f : Int → Int → Color} (hm : s.mode ≠ .halted) (hp : s.pos = .epdPixel) (hb : s.bus = []) (hs : s.send = none)
  (hc : s.changed = [])

include hm hp hb hs hc

/-- A query of a group whose pixel the source has, and the host keeps as it was (41_epaper R211). -/
theorem step_epdPixel_stable {c : Color} (hpix : pix s (s.epd.xa + 8 * s.epd.g + s.epd.k) s.epd.j = some c) :
    step s = .next (if s.epd.k < 7 then { s with sr := shiftIn s.sr c, epd := { s.epd with k := s.epd.k + 1 } }
      else standAt ⟨[], [shiftIn s.sr c]⟩ .epdNextGroup { s with sr := shiftIn s.sr c }) := by
  have hread : seqStep s = epdReadPixel s := by rw [seqStep, hp]
  rw [step_point hm hb hs (by simp [hp]), hread, epdReadPixel, query_stable hc hpix]

variable (hpix : ∀ k : Nat, k < 8 →
  pix s (s.epd.xa + 8 * s.epd.g + k) s.epd.j = some (f (s.epd.xa + 8 * s.epd.g + k) s.epd.j))

include hpix

/-- The first queries of a group, up to its seventh, one a step: SR holds their pixels. -/
theorem run_epdPacked (hsr : s.sr = 0) (hk : s.epd.k = 0) {n : Nat} (hn : n ≤ 7) :
    Sys2Proof.core.run n s = .next (epdPacked n f s) := by
  induction n with
  | zero =>
    have hsame : epdPacked 0 f s = s := by
      rw [epdPacked, ← hk, show BitVec.ofNat 8 (shifted _ s.epd.k) = s.sr by rw [hk, hsr]; rfl]
    rw [hsame, run_zero]
  | succ n ih =>
    refine (run_add 1 (ih (by omega))).trans (run_one ((step_epdPixel_stable (s := epdPacked n f s) hm hp hb hs hc
      (hpix n (by omega))).trans (congrArg _ ?_)))
    rw [if_pos (by exact hn)]
    simp only [epdPacked, shiftIn_ofNat, shifted]

end Group

/-- Settles O33: seven queries shift their pixels into SR, and the eighth makes the byte due. -/
theorem epdPacksEightPixels : Obligations.EpdPacksEightPixels := by
  unfold Obligations.EpdPacksEightPixels
  intro s f hmode hp hb hs hsr hk hc hpix
  have hm : s.mode ≠ .halted := by simp [hmode]
  refine (run_add 1 (run_epdPacked hm hp hb hs hc hpix hsr hk le_rfl)).trans (run_one
    ((step_epdPixel_stable (s := epdPacked 7 f s) hm hp hb hs hc (hpix 7 (by decide))).trans (congrArg _ ?_)))
  rw [if_neg (by exact Nat.lt_irrefl 7)]
  simp only [epdPacked, shiftIn_ofNat, ← epdByte_eq_shifted]
  rfl

end Sys2Proof.Machine
end

section
/-! SUPPORT and PROOFS. The EPD commands that only INIT sends (O30; 41_epaper R206): where each move, event, read and request
brings the sequencer to stand. -/

namespace Sys2Proof.Machine

variable {s t : State}

/-! ### The commands of the frame write and of the commit -/

/-- A command the frame write or the commit sends (41_epaper R211, R240); the commit's has no payload (R228). -/
def FrameOrCommit (op : Byte) (payload : List Byte) : Prop :=
  op ∈ [0x44, 0x45, 0x4E, 0x4F, 0x24, 0x20] ∧ (op = 0x20 → payload = [])

theorem frameOrCommit_frame {op : Byte} (h : op ∈ [0x44, 0x45, 0x4E, 0x4F, 0x24]) (payload : List Byte) :
    FrameOrCommit op payload :=
  ⟨List.mem_append_left [0x20] h, fun he => absurd (he ▸ h) (by decide)⟩

theorem frameOrCommit_commit : FrameOrCommit 0x20 [] := ⟨by decide, fun _ => rfl⟩

/-- An EPD command that is due outside INIT is one of the frame write or the commit. -/
def InitAlone (s : State) : Prop :=
  ∀ op payload, s.send = some ⟨[op], payload⟩ → s.mode = .initializing ∨ FrameOrCommit op payload

theorem InitAlone.of_none (h : s.send = none) : InitAlone s := fun _ _ hs => nomatch h.symm.trans hs

theorem initAlone_initializing (hm : s.mode = .initializing) : InitAlone s := fun _ _ _ => .inl hm

theorem initAlone_standAt {op : Byte} {payload : List Byte} {p : Pos} (h : FrameOrCommit op payload) :
    InitAlone (standAt ⟨[op], payload⟩ p s) := fun _ _ hs => by
  cases Option.some.inj hs
  exact .inr h

/-- A pixel byte is no command (30_encoding R122). -/
theorem initAlone_pixel {b : Byte} {p : Pos} : InitAlone (standAt ⟨[], [b]⟩ p s) := nofun

/-! ### The moves -/

@[simp] theorem nextChar_send (s : State) : (nextChar s).send = s.send := by
  unfold nextChar
  dsimp only
  split <;> rfl

@[simp] theorem writeDone_send (s : State) : (writeDone s).send = s.send := by
  unfold writeDone
  split
  · exact nextChar_send s
  all_goals rfl

theorem epdRowOrEnd_initAlone (hs : s.send = none) (j : Int) : InitAlone (epdRowOrEnd j s) := by
  unfold epdRowOrEnd
  split
  · exact initAlone_standAt (frameOrCommit_frame (by decide) _)
  · exact .of_none ((writeDone_send s).trans hs)

theorem epdGroupOrRow_initAlone (hs : s.send = none) (g : Int) : InitAlone (epdGroupOrRow g s) := by
  unfold epdGroupOrRow
  split
  · exact .of_none hs
  · exact epdRowOrEnd_initAlone hs _

theorem startWrite_initAlone (hv : s.cfg.variant = .epd) : InitAlone (startWrite s) := by
  rw [startWrite_epd hv]
  split
  · exact .of_none rfl
  · exact initAlone_standAt (frameOrCommit_frame (by decide) _)

theorem epdInitNext_initAlone (hs : s.send = none) (hm : s.mode = .initializing) (rest : List InitAction) :
    InitAlone (epdInitNext rest s) := by
  unfold epdInitNext
  split
  · exact .of_none hs
  · exact initAlone_initializing hm
  all_goals exact .of_none hs

/-- Moving on from an EPD position: only that of EPD_INIT_SEQ leads to another command, and it is one of INITIALIZING. -/
theorem resume_initAlone (hs : s.send = none) (hv : s.cfg.variant = .epd) (hp : posOk s.cfg s.mode s.pos = true) :
    InitAlone (resume s) := by
  cases hmv : isMove s.pos with
  | false =>
    rw [resume_of_isMove_eq_false hmv]
    exact .of_none hs
  | true =>
    obtain ⟨hpv, hm, -, -⟩ := posOk_iff.mp hp
    rw [hv] at hpv
    unfold resume
    cases e : s.pos <;> rw [e] at hmv hpv hm <;> dsimp only
    case epdInit rest => exact epdInitNext_initAlone hs (eq_of_beq hm) rest
    case epdYWindow => exact initAlone_standAt (frameOrCommit_frame (by decide) _)
    case epdRows => exact epdRowOrEnd_initAlone hs _
    case epdYPointer => exact initAlone_standAt (frameOrCommit_frame (by decide) _)
    case epdPointerSet => exact .of_none hs
    case epdGroups => exact epdGroupOrRow_initAlone hs _
    case epdNextGroup => exact epdGroupOrRow_initAlone hs _
    case goledBlock | goledRowWindow | goledRows | goledNextPair | woledInit | woledPageWindow | woledPages
      | woledNextColumn => cases hpv
    all_goals cases hmv

theorem waitDone_initAlone {site : WaitSite} (hs : s.send = none) (hv : s.cfg.variant = .epd)
    (hp : posOk s.cfg s.mode (.sample site) = true) : InitAlone (waitDone site s) := by
  obtain ⟨-, hm, hi, -⟩ := posOk_iff.mp hp
  cases site with
  | init rest =>
    exact resume_initAlone (s := { s with pos := .epdInit rest }) hs hv (posOk_intro hv (eq_of_beq hm) rfl hi)
  | pointer => exact initAlone_standAt (frameOrCommit_frame (by decide) _)
  | commit => exact .of_none hs

/-! ### The events and reads -/

theorem pinOp_initAlone {k : State → State} (hk : InitAlone (k { s with ops := s.ops + 1 })) : InitAlone (pinOp s k) := by
  rcases pinOp_cases s k with ⟨u, -, e⟩ | ⟨-, e⟩ <;> rw [e]
  · exact .of_none (takeFault_send _ s)
  · exact hk

theorem epdReadPixel_initAlone (hs : s.send = none) : InitAlone (epdReadPixel s) := by
  rcases query_cases (s.epd.xa + 8 * s.epd.g + s.epd.k) s.epd.j s _ with ⟨c, -, e⟩ | ⟨-, e⟩ <;> rw [epdReadPixel, e]
  · dsimp only
    split
    · exact .of_none ((pixRead_send c s).trans hs)
    · exact initAlone_pixel
  · exact .of_none (takeFault_send _ s)

theorem readGlyph_initAlone (hs : s.send = none) (hv : s.cfg.variant = .epd) : InitAlone (readGlyph s) := by
  have hread : (glyphRead s).2.send = none := (glyphRead_send s).trans hs
  unfold readGlyph
  dsimp only
  split
  · exact .of_none hread
  · split
    · exact .of_none hread
    · exact startWrite_initAlone ((congrArg Config.variant (glyphRead_keeps s).cfg).trans hv)

/-- The event or read at a point of the invariant: INIT goes on in INITIALIZING. -/
theorem Inv.seqStep_initAlone (h : Inv s) (hs : s.send = none) (hv : s.cfg.variant = .epd) (hnm : isMove s.pos = false) :
    InitAlone (seqStep s) := by
  have hpv := h.pos
  have hm := h.modePos
  have hok := h.posOk
  rw [hv] at hpv
  unfold seqStep
  cases e : s.pos <;> rw [e] at hnm hpv hm hok <;> dsimp only
  case raising code => exact .of_none (takeFault_send code s)
  case halting code => exact .of_none rfl
  case resetLow => exact pinOp_initAlone (.of_none hs)
  case resetHigh => exact pinOp_initAlone (.of_none hs)
  case resetSettle => exact epdInitNext_initAlone (by exact hs) rfl _
  case pause ms rest => exact epdInitNext_initAlone (s := emit (.delay ms) s) hs (eq_of_beq hm) rest
  case sample site =>
    refine pinOp_initAlone ?_
    split
    · exact .of_none ((sampleBusy_send _).trans hs)
    · exact waitDone_initAlone ((sampleBusy_send _).trans hs) (by simpa using hv) (by simpa using hok rfl)
  case epdPixel => exact epdReadPixel_initAlone hs
  case readChar => exact .of_none ((strRead_send s).trans hs)
  case readGlyph => exact readGlyph_initAlone hs hv
  case goledPre | goledPost | goledLeft | goledRight | woledDelay1 | woledDelay2 | woledPixel => cases hpv
  case idle | respond | resetHold | poll => exact .of_none hs
  all_goals cases hnm

/-- An operation of the transaction group in progress, and the move after it. -/
theorem Inv.driveBus_initAlone (h : Inv s) (hv : s.cfg.variant = .epd) (hb : s.bus ≠ []) (ht : driveBus s = .next t) :
    InitAlone t := by
  have hs : s.send = none := by
    by_contra hn
    exact hb (h.sendFree hn)
  obtain ⟨op, rest, e⟩ := List.exists_cons_of_ne_nil hb
  rcases driveBus_cases e ht with ⟨code, rfl⟩ | ⟨-, rfl⟩
  · exact .of_none (takeFault_send code _)
  · have hsend : (applyOp op { s with bus := rest, ops := s.ops + 1 }).send = none := (applyOp_send _ _).trans hs
    rcases settle_cases (applyOp op { s with bus := rest, ops := s.ops + 1 }) with ⟨-, -, e⟩ | ⟨-, e⟩ <;> rw [e]
    · exact resume_initAlone hsend (by simpa using hv) (by simpa using h.posOk (h.running hb))
    · exact .of_none hsend

/-! ### The requests -/

/-- A request refused comes to no command; one that begins comes to what its pseudocode does. -/
theorem serve_initAlone {isInit : Bool} {l : Latch} {ok : Bool} {go : State → State} (hs : s.send = none)
    (ht : serve isInit l ok go s = .next t) (hgo : InitAlone (go { s with latch := l })) : InitAlone t := by
  rcases serve_cases isInit l ok go s with ⟨-, e⟩ | ⟨-, e⟩ | ⟨-, -, -, e⟩ | ⟨-, -, e⟩ <;>
    obtain rfl := Host.Outcome.next.inj (e.symm.trans ht)
  · exact hgo
  · exact .of_none rfl
  · exact .of_none rfl
  · exact .of_none hs

theorem serve_startWrite_initAlone {l : Latch} {ok : Bool} {src : PixSource} (hs : s.send = none)
    (hv : s.cfg.variant = .epd) (ht : serve false l ok (fun s => startWrite { s with src := src }) s = .next t) :
    InitAlone t :=
  serve_initAlone hs ht (startWrite_initAlone hv)

theorem respond_initAlone {op : Byte} {v : Half} (hs : s.send = none) (ht : respond op v s = .next t) : InitAlone t :=
  serve_initAlone hs ht (.of_none hs)

/-- The requests that come to a command are the frame writes and DISPLAY_FRAME; INIT begins with its reset pulse. -/
theorem exec_request_initAlone {i : Instr} (hi : (encode i).space = .request) (hs : s.send = none)
    (hv : s.cfg.variant = .epd) (ht : exec i s = .next t) : InitAlone t := by
  cases i
  case init =>
    rw [exec, execInit] at ht
    refine serve_initAlone hs ht (.of_none ?_)
    split <;> exact hs
  case setFrameCallback => exact serve_startWrite_initAlone (src := .callback) hs hv ht
  case setFrameBuffer => exact serve_startWrite_initAlone (src := .buffer) hs hv ht
  case clearFrame => exact serve_startWrite_initAlone (src := .constant) hs hv ht
  case displayFrame =>
    rw [exec, execDisplayFrame] at ht
    refine serve_initAlone hs ht ?_
    simp only [hv]
    exact initAlone_standAt frameOrCommit_commit
  case drawText =>
    rw [exec, execDrawText] at ht
    refine serve_initAlone hs ht (.of_none ?_)
    dsimp only
    split <;> exact hs
  case rdWidth => exact respond_initAlone hs ht
  case rdHeight => exact respond_initAlone hs ht
  case rdPpb => exact respond_initAlone hs ht
  case rdLight => exact respond_initAlone hs ht
  case rdDark => exact respond_initAlone hs ht
  all_goals cases hi

/-- A descriptor that does not decode comes to ILLEGAL_REQUEST, and no command (30_encoding R118). -/
theorem step_accept_initAlone {r : HostRequest} {rest : List HostRequest} (hm : s.mode = .uninit ∨ s.mode = .idle)
    (hv : s.cfg.variant = .epd) (hp : s.pos = .idle) (hb : s.bus = []) (hs : s.send = none) (hh : s.host = r :: rest)
    (ht : step s = .next t) : InitAlone t := by
  rw [step_accept hm hp hb hs hh] at ht
  split at ht
  · next i hd => exact exec_request_initAlone (s := accept r s) (decode_space hd) hs hv ht
  · obtain rfl := Host.Outcome.next.inj ht
    exact .of_none rfl

/-- Settles O30, by the branches of a step: a command due goes on the bus, and every other step comes from a state with
none. -/
theorem initOnlyCommands : Obligations.InitOnlyCommands := by
  unfold Obligations.InitOnlyCommands
  intro s t op payload h hm hv ht
  suffices hall : InitAlone t from hall op payload
  cases hs : s.send with
  | some w =>
    obtain ⟨i, hd⟩ := h.send_decodes hs
    obtain ⟨op, rest, he, hbus⟩ := h.exec_due_drives hm hs hd
    have hstep : step s = exec i s := step_send hm (h.sendFree (by simp [hs])) hs hd
    exact hbus.driveBus_initAlone hv nofun (he.symm.trans (hstep.symm.trans ht))
  | none =>
    rcases step_branches s hm with ⟨hb, e⟩ | ⟨-, w, hw⟩ | ⟨hb, -, -, e⟩ | ⟨hb, -, hp, ha, r, rest, hh⟩ | ⟨-, e⟩
    · exact h.driveBus_initAlone hv hb (e.symm.trans ht)
    · exact nomatch hs.symm.trans hw
    · exact Host.Outcome.next.inj (e.symm.trans ht) ▸ h.seqStep_initAlone hs hv (h.isMove_eq_false hb hs)
    · exact step_accept_initAlone ha hv hp hb hs hh ht
    · exact Host.Outcome.next.inj (e.symm.trans ht) ▸ .of_none hs

end Sys2Proof.Machine
end

section
/-! SUPPORT and PROOFS. The statements of 42_gray_oled: the nibble packer (O32), the two queries of a pair (O34) and INIT
(O21). -/

namespace Sys2Proof.Machine

variable {s : State}

/-! ### The nibble packer -/

/-- Each lane keeps its low 4 bits (42_gray_oled R265, R282). -/
theorem packNibbles_toNat (l r : Color) : (packNibbles l r).toNat = l.toNat % 16 * 16 + r.toNat % 16 := by
  rw [packNibbles_eq, BitVec.toNat_ofNat]
  omega

/-- On 0..15 the lanes are the two digits of the byte to base 16 (42_gray_oled R282). -/
theorem packNibbles_eq_iff {l r : Color} (hl : l.toNat ≤ 15) (hr : r.toNat ≤ 15) (b : Byte) :
    packNibbles l r = b ↔ l.toNat = b.toNat / 16 ∧ r.toNat = b.toNat % 16 := by
  rw [← BitVec.toNat_inj, packNibbles_toNat]
  omega

/-- Settles O32: the lanes of a byte are its digits to base 16, and no others pack into it. -/
theorem nibblePacker : Obligations.NibblePacker := by
  unfold Obligations.NibblePacker
  refine ⟨packNibbles_toNat, fun b => ?_, by decide⟩
  have hleft : (BitVec.ofNat 8 (b.toNat / 16)).toNat = b.toNat / 16 := by simp only [BitVec.toNat_ofNat]; omega
  have hright : (BitVec.ofNat 8 (b.toNat % 16)).toNat = b.toNat % 16 := by simp only [BitVec.toNat_ofNat]; omega
  refine ⟨.ofNat 8 (b.toNat / 16), .ofNat 8 (b.toNat % 16), by omega, by omega,
    (packNibbles_eq_iff (by omega) (by omega) b).mpr ⟨hleft, hright⟩, fun l r hl hr hpack => ?_⟩
  obtain ⟨hl', hr'⟩ := (packNibbles_eq_iff hl hr b).mp hpack
  exact ⟨BitVec.eq_of_toNat_eq (hl'.trans hleft.symm), BitVec.eq_of_toNat_eq (hr'.trans hright.symm)⟩

/-! ### The two queries of a pair -/

section Pair

variable {c : Color} (hm : s.mode ≠ .halted) (hb : s.bus = []) (hs : s.send = none) (hc : s.changed = [])

include hm hb hs hc

/-- A left query whose pixel the source has, and the host keeps as it was (42_gray_oled R262). -/
theorem step_goledLeft_stable (hp : s.pos = .goledLeft) (hpix : pix s (2 * s.goled.c) s.goled.r = some c) :
    step s = .next { s with goled := { s.goled with l := c }, pos := .goledRight } := by
  have hread : seqStep s = goledReadLeft s := by rw [seqStep, hp]
  rw [step_point hm hb hs (by simp [hp]), hread, goledReadLeft, query_stable hc hpix]

/-- A right query of that kind, after which the packed byte is due (42_gray_oled R262, R265). -/
theorem step_goledRight_stable (hp : s.pos = .goledRight) (hpix : pix s (2 * s.goled.c + 1) s.goled.r = some c) :
    step s = .next (standAt ⟨[], [packNibbles s.goled.l c]⟩ .goledNextPair
      { s with sr := packNibbles s.goled.l c, goled := { s.goled with rt := c } }) := by
  have hread : seqStep s = goledReadRight s := by rw [seqStep, hp]
  rw [step_point hm hb hs (by simp [hp]), hread, goledReadRight, query_stable hc hpix]

end Pair

/-- Settles O34: a left query, a right query, and the packer's sum. -/
theorem goledPacksTwoPixels : Obligations.GoledPacksTwoPixels := by
  unfold Obligations.GoledPacksTwoPixels
  intro s f hmode hp hb hs hc hleft hright
  have hm : s.mode ≠ .halted := by simp [hmode]
  let u : State := { s with goled := { s.goled with l := f (2 * s.goled.c) s.goled.r }, pos := .goledRight }
  rw [run_succ 1 (step_goledLeft_stable hm hb hs hc hp hleft),
    run_one (step_goledRight_stable (s := u) hm hb hs hc rfl hright), packNibbles_eq]
  rfl

/-! ### INIT -/

/-- A non-empty command of GOLED_INIT_BLOCK is a wire command (30_encoding R124). -/
theorem isCommand_goledInit {k : List Byte} (hk : k ≠ []) : IsCommand .goledInit ⟨k, []⟩ := by
  obtain ⟨b, bytes, rfl⟩ := List.exists_cons_of_ne_nil hk
  exact ⟨.goledInitBlock (b :: bytes), rfl, rfl, rfl, rfl⟩

/-- One command of GOLED_INIT_BLOCK is sent, and the rest of the block is next (42_gray_oled R250). -/
theorem reaches_goledCommand {k : List Byte} (h : Between .initializing s) (hv : s.cfg.variant = .goled) (hk : k ≠ [])
    (rest : List (List Byte)) :
    Reaches (goledInitNext (k :: rest) s) (goledInitNext rest (sent ⟨k, []⟩ (.goledBlock rest) s)) ∧
      Between .initializing (sent ⟨k, []⟩ (.goledBlock rest) s) ∧
      Advanced s (sent ⟨k, []⟩ (.goledBlock rest) s) (cmdEvents k) [] := by
  have hsp : wireSpace s = .goledInit := by simp [wireSpace, hv, h.mode]
  have hevents : wordEvents s.cfg.framing ⟨k, []⟩ = cmdEvents k := by
    obtain ⟨b, bytes, rfl⟩ := List.exists_cons_of_ne_nil hk
    exact wordEvents_cmd _ b bytes
  exact ⟨h.reaches_command (.goledBlock rest) (hsp ▸ isCommand_goledInit hk), h.sent _ _, hevents ▸ Advanced.sent _ _ s⟩

/-- The rest of GOLED_INIT_BLOCK, from the command `k` on: each command in a transaction of its own, and then the closing
delay is next (42_gray_oled R250). The last transaction leaves chip-select deasserted and DC at command level. -/
theorem reaches_goledBlock {k : List Byte} {rest : List (List Byte)} (h : Between .initializing s)
    (hv : s.cfg.variant = .goled) (hne : ∀ l ∈ k :: rest, l ≠ []) :
    ∃ t, Reaches (goledInitNext (k :: rest) s) { t with pos := .goledPost } ∧ Between .initializing t ∧
      Advanced s t ((k :: rest).map cmdEvents).flatten [] ∧ t.pins = { s.pins with cs := .deassert, dc := .cmd } := by
  induction rest generalizing k s with
  | nil =>
    obtain ⟨hreach, hbt, hadv⟩ := reaches_goledCommand h hv (hne k List.mem_cons_self) []
    exact ⟨_, hreach, hbt, by simpa using hadv, rfl⟩
  | cons l rest ih =>
    obtain ⟨hreach, hbt, hadv⟩ := reaches_goledCommand h hv (hne k List.mem_cons_self) (l :: rest)
    obtain ⟨t, hreach', hbt', hadv', hpins⟩ := ih hbt hv fun m hm => hne m (List.mem_cons_of_mem k hm)
    exact ⟨t, hreach.trans hreach', hbt', hadv.trans hadv', hpins⟩

/-- Settles O21: the opening delay, the commands one after another, and the closing delay. -/
theorem initOnGoled : Obligations.InitOnGoled := by
  unfold Obligations.InitOnGoled
  intro s hm hv hblock hne hb hs ho
  obtain ⟨k, rest, hcons⟩ := List.exists_cons_of_ne_nil hblock
  let u : State := { s with latch := ⟨0x01, 0, 0, 0, 0, 0, 0, 0⟩, mode := .initializing, pos := .goledPre }
  have hu : Between .initializing u := ⟨rfl, hb, hs, ho⟩
  have hpre : step u = .next (goledInitNext s.cfg.goledInitBlock (emit (.delay s.cfg.goledDPre) u)) :=
    hu.step (by decide) nofun
  obtain ⟨t, hreach, hbt, hadv, hpins⟩ := reaches_goledBlock (s := emit (.delay s.cfg.goledDPre) u) (k := k) (rest := rest)
    ⟨rfl, hb, hs, ho⟩ hv (hcons ▸ hne)
  rw [← hcons] at hreach hadv
  let v : State := { t with pos := .goledPost }
  have hpost : step v = .next (finishRequest (emit (.delay v.cfg.goledDPost) v)) :=
    Between.step ⟨hbt.mode, hbt.bus, hbt.send, hbt.oracle⟩ (by decide) nofun
  obtain ⟨n, hrun⟩ := (Reaches.of_step hpre).trans (hreach.trans (Reaches.of_step hpost))
  have htrace : t.trace ++ [.delay t.cfg.goledDPost] = s.trace ++ [.delay s.cfg.goledDPre]
      ++ (s.cfg.goledInitBlock.map cmdEvents).flatten ++ [.delay s.cfg.goledDPost] := by
    rw [hadv.trace, hadv.cfg]
    rfl
  obtain ⟨-, hbegins, -⟩ := initBegins s hm
  exact ⟨n, u, _, hbegins hv, hrun, rfl, rfl, htrace, hpins, fun a => congrArg (Memory.read · a) hadv.fm⟩

end Sys2Proof.Machine
end

section
/-! SUPPORT and PROOFS. The statements of 43_wide_oled: INIT (O20) and the vertical packer (O35). -/

namespace Sys2Proof.Machine

variable {s : State}

/-! ### INIT -/

/-- The two delays before the commands (43_wide_oled R290). -/
theorem run_woledDelays (hm : s.mode ≠ .halted) (hp : s.pos = .woledDelay1) (hb : s.bus = []) (hs : s.send = none) :
    Sys2Proof.core.run 2 s = .next (woledInitNext woledInitCommands { s with
      pos := .woledDelay2
      trace := s.trace ++ [.delay s.cfg.woledD1, .delay s.cfg.woledD2] }) := by
  let u : State := { emit (.delay s.cfg.woledD1) s with pos := .woledDelay2 }
  have hfirst : step s = .next u := by rw [step_point hm hb hs (by simp [hp]), seqStep, hp]
  have hsecond : step u = .next (woledInitNext woledInitCommands (emit (.delay s.cfg.woledD2) u)) :=
    step_point (s := u) hm hb hs nofun
  rw [run_succ 1 hfirst, run_one hsecond]
  simp only [u, emit, List.append_assoc, List.cons_append, List.nil_append]

/-- Each initialisation command is a wire command of WOLED (43_wide_oled R292; 30_encoding R128). -/
theorem isCommand_woledInit : ∀ k ∈ woledInitCommands, IsCommand .woled ⟨k, []⟩ := by
  simp only [woledInitCommands, List.forall_mem_cons]
  exact ⟨⟨.woledSetAddressingModeHorizontal, rfl, rfl, rfl, rfl⟩, ⟨.woledFlipVertical, rfl, rfl, rfl, rfl⟩,
    ⟨.woledFlipHorizontal, rfl, rfl, rfl, rfl⟩, ⟨.woledDisplayOn, rfl, rfl, rfl, rfl⟩, nofun⟩

/-- The events of a wire command with no payload, whatever its first byte (30_encoding R122). -/
theorem IsCommand.wordEvents {sp : Space} {k : List Byte} (h : IsCommand sp ⟨k, []⟩) (fr : Framing) :
    wordEvents fr ⟨k, []⟩ = cmdEvents k := by
  obtain ⟨i, -, he, hp, hw⟩ := h
  obtain ⟨b, bytes, rfl⟩ : ∃ b bytes, k = b :: bytes :=
    List.exists_cons_of_ne_nil (by simpa only [he] using encode_cmd_ne_nil hp hw)
  exact wordEvents_cmd fr b bytes

/-- One initialisation command is sent, as many steps as it has events, and the next one is due (43_wide_oled R290). -/
theorem run_woledCommand {k : List Byte} (rest : List (List Byte)) (hm : s.mode ≠ .halted) (hv : s.cfg.variant = .woled)
    (hb : s.bus = []) (hc : IsCommand .woled ⟨k, []⟩) (hq : quiet (cmdEvents k).length s) :
    Sys2Proof.core.run (cmdEvents k).length (woledInitNext (k :: rest) s) =
      .next (woledInitNext rest (sent ⟨k, []⟩ (.woledInit rest) s)) := by
  have hsp : wireSpace s = .woled := by rw [wireSpace, hv]
  have hrun := run_standAt (.woledInit rest) hm hb (hsp ▸ hc) (by rwa [hc.wordEvents])
  rwa [hc.wordEvents] at hrun

/-- Initialisation commands one after another, and then INIT ends (43_wide_oled R290). The last transaction leaves
chip-select deasserted and DC at command level. -/
theorem run_woledInit (ks : List (List Byte)) (hm : s.mode ≠ .halted) (hv : s.cfg.variant = .woled) (hb : s.bus = [])
    (hc : ∀ k ∈ ks, IsCommand .woled ⟨k, []⟩) (hq : quiet (ks.map cmdEvents).flatten.length s) :
    ∃ t, Sys2Proof.core.run (ks.map cmdEvents).flatten.length (woledInitNext ks s) = .next (finishRequest t) ∧
      Advanced s t (ks.map cmdEvents).flatten [] ∧
      t.pins = if ks = [] then s.pins else { s.pins with cs := .deassert, dc := .cmd } := by
  induction ks generalizing s with
  | nil => exact ⟨s, run_zero _, Advanced.refl s, rfl⟩
  | cons k rest ih =>
    simp only [List.map_cons, List.flatten_cons, List.length_append] at hq ⊢
    obtain ⟨hk, hrest⟩ := List.forall_mem_cons.mp hc
    let u : State := sent ⟨k, []⟩ (.woledInit rest) s
    have hfirst := run_woledCommand rest hm hv hb hk (quiet_mono (Nat.le_add_right _ _) hq)
    have hadv : Advanced s u (cmdEvents k) [] := hk.wordEvents s.cfg.framing ▸ Advanced.sent _ _ s
    have hops : u.ops = s.ops + (cmdEvents k).length := by rw [← hk.wordEvents s.cfg.framing]; rfl
    obtain ⟨t, hrun, hadv', hpins⟩ := ih (s := u) hm hv rfl hrest (quiet_after hq rfl hops)
    refine ⟨t, (run_add _ hfirst).trans hrun, hadv.trans hadv', hpins.trans ?_⟩
    rw [if_neg (List.cons_ne_nil k rest)]
    exact ite_self _

/-- Settles O20: the two delays, and the four commands one after another. -/
theorem initOnWoled : Obligations.InitOnWoled := by
  unfold Obligations.InitOnWoled
  intro s hm hv hb hs hq
  let u : State := { s with latch := ⟨0x01, 0, 0, 0, 0, 0, 0, 0⟩, mode := .initializing, pos := .woledDelay1 }
  let v : State := { u with
    pos := .woledDelay2
    trace := s.trace ++ [.delay s.cfg.woledD1, .delay s.cfg.woledD2] }
  obtain ⟨-, -, hbegins⟩ := initBegins s hm
  obtain ⟨t, hrun, hadv, hpins⟩ := run_woledInit (s := v) woledInitCommands nofun hv hb isCommand_woledInit hq
  have hall : Sys2Proof.core.run 19 u = .next (finishRequest t) :=
    (run_add 17 (run_woledDelays (s := u) nofun rfl hb hs)).trans hrun
  have htrace : t.trace = s.trace ++ [.delay s.cfg.woledD1, .delay s.cfg.woledD2] ++ cmdEvents [0x20, 0x00]
      ++ cmdEvents [0xA1] ++ cmdEvents [0xC8] ++ cmdEvents [0xAF] := by
    simpa [woledInitCommands, v] using hadv.trace
  exact ⟨u, _, hbegins hv, hall, rfl, rfl, htrace, hpins, fun a => congrArg (Memory.read · a) hadv.fm⟩

/-! ### The vertical packer -/

section Column

variable {f : Int → Int → Color} (hm : s.mode ≠ .halted) (hp : s.pos = .woledPixel) (hb : s.bus = [])
  (hs : s.send = none) (hc : s.changed = [])

include hm hp hb hs hc

/-- A query of a column whose pixel the source has, and the host keeps as it was (43_wide_oled R301). -/
theorem step_woledPixel_stable {c : Color} (hpix : pix s s.woled.c (8 * s.woled.p + s.woled.off) = some c) :
    step s = .next
      (if 0 < s.woled.off then { s with sr := shiftIn s.sr c, woled := { s.woled with off := s.woled.off - 1 } }
      else standAt ⟨[], [shiftIn s.sr c]⟩ .woledNextColumn { s with sr := shiftIn s.sr c }) := by
  have hread : seqStep s = woledReadPixel s := by rw [seqStep, hp]
  rw [step_point hm hb hs (by simp [hp]), hread, woledReadPixel, query_stable hc hpix]

variable (hpix : ∀ o : Nat, o < 8 → pix s s.woled.c (8 * s.woled.p + o) = some (f s.woled.c (8 * s.woled.p + o)))

include hpix

/-- The first queries of a column, up to its seventh, one a step: SR holds their pixels. -/
theorem run_woledPacked (hsr : s.sr = 0) (hoff : s.woled.off = 7) {n : Nat} (hn : n ≤ 7) :
    Sys2Proof.core.run n s = .next (woledPacked n f s) := by
  induction n with
  | zero =>
    have hsame : woledPacked 0 f s = s := by
      rw [woledPacked, Nat.sub_zero, ← hoff, show BitVec.ofNat 8 (shifted _ 0) = s.sr by rw [hsr]; rfl]
    rw [hsame, run_zero]
  | succ n ih =>
    have hleft : 0 < 7 - n := by omega
    refine (run_add 1 (ih (by omega))).trans (run_one ((step_woledPixel_stable (s := woledPacked n f s) hm hp hb hs hc
      (hpix (7 - n) (by omega))).trans (congrArg _ ?_)))
    rw [if_pos (by exact hleft)]
    simp only [woledPacked, shiftIn_ofNat, shifted, Nat.sub_sub]

end Column

/-- Settles O35: seven queries shift their pixels into SR, and the eighth, of the topmost pixel, makes the byte due. -/
theorem woledPacksEightPixels : Obligations.WoledPacksEightPixels := by
  unfold Obligations.WoledPacksEightPixels
  intro s f hmode hp hb hs hsr hoff hc hpix
  have hm : s.mode ≠ .halted := by simp [hmode]
  refine (run_add 1 (run_woledPacked hm hp hb hs hc hpix hsr hoff le_rfl)).trans (run_one
    ((step_woledPixel_stable (s := woledPacked 7 f s) hm hp hb hs hc (hpix 0 (by decide))).trans (congrArg _ ?_)))
  rw [if_neg (by exact Nat.lt_irrefl 0)]
  simp only [woledPacked, shiftIn_ofNat, ← woledByte_eq_shifted]
  rfl

end Sys2Proof.Machine
end

section
/-! SUPPORT and PROOFS. The statement of 44_text about glyph expansion (O54): TB filled bit by bit, and the sub-write over
it. -/

namespace Sys2Proof.Machine

variable {s : State}

/-! ### TB in the course of the expansion -/

/-- The Color of glyph row r, column c of the character in CH (44_text R332). -/
def glyphColor (r c : Nat) (s : State) : Color := if glyphBit s.cfg s.text.ch r c then s.latch.c0 else s.latch.c1

/-- TB with its first n entries filled from the glyph, in row-major order, and the others as they were. -/
def glyphBuffer (n : Nat) (s : State) : Vector Color 64 :=
  Vector.ofFn fun i => if i.val < n then glyphColor (i.val / 8) (i.val % 8) s else s.tb[i]

/-- The state in which bit n of the glyph is the next to be read (44_text R331). -/
def glyphExpanded (n : Nat) (s : State) : State :=
  { s with tb := glyphBuffer n s, text := { s.text with gr := n / 8, gc := n % 8 } }

theorem getElem_glyphBuffer {n i : Nat} (hi : i < 64) :
    (glyphBuffer n s)[i] = if i < n then glyphColor (i / 8) (i % 8) s else s.tb[i] := by
  rw [glyphBuffer, Vector.getElem_ofFn]
  rfl

theorem glyphBuffer_zero : glyphBuffer 0 s = s.tb :=
  Vector.ext fun i hi => by rw [getElem_glyphBuffer, if_neg (Nat.not_lt_zero i)]

/-- The Color of bit n, put at its own entry, makes the filled part one entry longer. -/
theorem glyphBuffer_succ (n : Nat) :
    (glyphBuffer n s).setIfInBounds (8 * (n / 8) + n % 8) (glyphColor (n / 8) (n % 8) s) = glyphBuffer (n + 1) s := by
  refine Vector.ext fun i hi => ?_
  rw [Nat.div_add_mod, Vector.getElem_setIfInBounds, getElem_glyphBuffer, getElem_glyphBuffer]
  rcases Nat.lt_trichotomy i n with hlt | rfl | hgt
  · rw [if_neg hlt.ne', if_pos hlt, if_pos (Nat.lt_succ_of_lt hlt)]
  · rw [if_pos rfl, if_pos (Nat.lt_succ_self i)]
  · rw [if_neg hgt.ne, if_neg hgt.not_gt, if_neg (by omega)]

/-- Filled to its end, TB keeps no Color of an earlier character (44_text R332). -/
theorem getElem_glyphBuffer_full {r c : Nat} (hr : r < 8) (hc : c < 8) :
    (glyphBuffer 64 s)[8 * r + c] = glyphColor r c s := by
  have hrow : (8 * r + c) / 8 = r := by omega
  have hcol : (8 * r + c) % 8 = c := by omega
  rw [getElem_glyphBuffer, if_pos (by omega), hrow, hcol]

/-! ### The reads of a glyph -/

section Expansion

variable (hm : s.mode ≠ .halted) (hp : s.pos = .readGlyph) (hb : s.bus = []) (hs : s.send = none) (hc : s.changed = [])

include hm hp hb hs hc

/-- A read of a glyph bit the host keeps as it was (44_text R331, R333). -/
theorem step_readGlyph_stable {tb : Vector Color 64}
    (htb : s.tb.setIfInBounds (8 * s.text.gr + s.text.gc) (glyphColor s.text.gr s.text.gc s) = tb) :
    step s = .next
      (if s.text.gc < 7 then { s with tb := tb, text := { s.text with gc := s.text.gc + 1 } }
      else if s.text.gr < 7 then { s with tb := tb, text := { s.text with gr := s.text.gr + 1, gc := 0 } }
      else startWrite { s with tb := tb, src := .text }) := by
  have hread : seqStep s = readGlyph s := by rw [seqStep, hp]
  rw [step_point hm hb hs (by simp [hp]), hread, readGlyph, glyphRead_stable hc, ← htb]
  rfl

/-- The first reads of a glyph, up to its sixty-third, one a step. -/
theorem run_glyphExpanded (hgr : s.text.gr = 0) (hgc : s.text.gc = 0) {n : Nat} (hn : n ≤ 63) :
    Sys2Proof.core.run n s = .next (glyphExpanded n s) := by
  induction n with
  | zero =>
    have hsame : glyphExpanded 0 s = s := by
      rw [glyphExpanded, glyphBuffer_zero, show 0 / 8 = s.text.gr from hgr.symm, show 0 % 8 = s.text.gc from hgc.symm]
    rw [hsame, run_zero]
  | succ n ih =>
    refine (run_add 1 (ih (by omega))).trans (run_one ((step_readGlyph_stable (s := glyphExpanded n s) hm hp hb hs hc
      (glyphBuffer_succ n)).trans (congrArg _ ?_)))
    by_cases hcol : n % 8 < 7
    · have hrow : (n + 1) / 8 = n / 8 := by omega
      have hnext : (n + 1) % 8 = n % 8 + 1 := by omega
      rw [if_pos (by exact hcol)]
      simp only [glyphExpanded, hrow, hnext]
    · have hrow : (n + 1) / 8 = n / 8 + 1 := by omega
      have hnext : (n + 1) % 8 = 0 := by omega
      have hleft : n / 8 < 7 := by omega
      rw [if_neg (by exact hcol), if_pos (by exact hleft)]
      simp only [glyphExpanded, hrow, hnext]

end Expansion

/-- Settles O54: 63 reads fill all but the last entry of TB, and the last read fills it and begins the sub-write. -/
theorem glyphExpansionFillsTheBuffer : Obligations.GlyphExpansionFillsTheBuffer := by
  unfold Obligations.GlyphExpansionFillsTheBuffer
  intro s hmode hp hb hs hgr hgc hc
  have hm : s.mode ≠ .halted := by simp [hmode]
  have hlast := step_readGlyph_stable (s := glyphExpanded 63 s) hm hp hb hs hc (glyphBuffer_succ 63)
  rw [if_neg (by exact Nat.lt_irrefl 7), if_neg (by exact Nat.lt_irrefl 7)] at hlast
  exact ⟨glyphBuffer 64 s, (run_add 1 (run_glyphExpanded hm hp hb hs hc hgr hgc le_rfl)).trans (run_one hlast),
    fun r c hr hcol => getElem_glyphBuffer_full hr hcol⟩

end Sys2Proof.Machine
end

section
/-! SUPPORT and PROOFS. The statements of 60_exceptions: a fault is precise (O9), and a failing collaborator operation raises
its fault in place of its event (O11). -/

namespace Sys2Proof.Machine

variable {s t u : State} {o : Host.Outcome State Fault Refusal} {code : FaultCode}

/-! ### What a step has to do with faults -/

/-- A step with no event of a fault in it: it neither halts nor comes to the point after Diag. -/
structure Faultless (s t : State) : Prop where
  live : s.mode ≠ .halted → t.mode ≠ .halted
  halting : ∀ code, t.pos = .halting code → s.pos = .halting code
  noDiag : t.trace ≠ s.trace ++ [.diag]

/-- One event of a fault: it enters the trace, and the pins and the panel's memory stay (60_exceptions R364). -/
structure FaultEvent (e : Event) (s t : State) : Prop where
  trace : t.trace = s.trace ++ [e]
  pins : t.pins = s.pins
  fm : t.fm = s.fm
  vis : t.vis = s.vis

/-- The step comes to the point after Diag, where it is enabled, with the event Diag (60_exceptions R366). -/
structure TakesDiag (code : FaultCode) (s t : State) : Prop extends FaultEvent .diag s t where
  enabled : s.cfg.diagEnabled = true
  pos : t.pos = .halting code
  live : s.mode ≠ .halted → t.mode ≠ .halted

/-- The step halts with the event Halt, where Diag is enabled from the point after it (60_exceptions R360, R366). -/
structure TakesHalt (code : FaultCode) (s t : State) : Prop extends FaultEvent (.halt code) s t where
  afterDiag : s.cfg.diagEnabled = true → s.pos = .halting code
  mode : t.mode = .halted
  cause : t.haltCause = some code
  pos : t.pos = .idle

theorem Keeps.halting_pos (h : Keeps s t) (hp : t.pos = .halting code) : s.pos = .halting code :=
  (h.halting (by rw [hp]; rfl)).symm.trans hp

/-- A move adds no event. -/
theorem Keeps.faultless (h : Keeps s t) : Faultless s t :=
  ⟨h.live, fun _ => h.halting_pos, fun hn => by simp [h.trace] at hn⟩

/-- An event other than Diag and Halt moves neither MODE nor the position. -/
theorem EventOf.plain (h : EventOf s t) :
    t.mode = s.mode ∧ t.pos = s.pos ∧ ∃ e, t.trace = s.trace ++ [e] ∧ e ≠ .diag := by
  cases h with
  | sample site hp => exact ⟨sampleBusy_mode _, sampleBusy_pos _, _, sampleBusy_trace _, nofun⟩
  | _ => exact ⟨rfl, rfl, _, rfl, nofun⟩

/-- Such an event, and the moves after it, have nothing of a fault in them. -/
theorem EventOf.faultless (h : EventOf s u) (hk : Keeps u t) : Faultless s t := by
  obtain ⟨hmode, hpos, e, htrace, hne⟩ := h.plain
  refine ⟨fun hm => hk.live (hmode ▸ hm), fun _ hp => hpos ▸ hk.halting_pos hp, fun hn => hne ?_⟩
  rw [hk.trace, htrace] at hn
  simpa using hn

/-- The first event of a fault is Diag where that is enabled, and Halt otherwise. -/
theorem takeFault_takes (code : FaultCode) (hk : Keeps s u) :
    TakesDiag code s (takeFault code u) ∨ TakesHalt code s (takeFault code u) := by
  rcases takeFault_cases code u with ⟨hd, e⟩ | ⟨hd, e⟩ <;> rw [hk.cfg] at hd <;> rw [e]
  · exact .inl ⟨⟨congrArg (· ++ _) hk.trace, hk.pins, hk.fm, hk.vis⟩, hd, rfl, hk.live⟩
  · exact .inr ⟨⟨congrArg (· ++ _) hk.trace, hk.pins, hk.fm, hk.vis⟩, fun hn => by simp [hd] at hn, rfl, rfl, rfl⟩

/-- After Diag comes Halt. -/
theorem halt_takes (hp : s.pos = .halting code) : TakesHalt code s (halt code s) :=
  ⟨⟨rfl, rfl, rfl, rfl⟩, fun _ => hp, rfl, rfl, rfl⟩

/-- Every step is without an event of a fault, or its one event is Diag, or it is Halt. -/
theorem step_fault_cases (ht : step s = .next t) :
    Faultless s t ∨ (∃ code, TakesDiag code s t) ∨ ∃ code, TakesHalt code s t := by
  rcases step_cases ht with ⟨rfl, -⟩ | ⟨-, -, -, -, hk⟩ | ⟨-, -, -, -, r, rest, -, hk⟩ | ⟨-, he⟩ | ⟨-, -, -, rfl⟩
  · exact .inl (Keeps.refl _).faultless
  · exact .inl hk.faultless
  · have h := hk.faultless
    exact .inl ⟨h.live, h.halting, h.noDiag⟩
  · rcases he with ⟨u, hu, hk⟩ | ⟨code, u, hk, rfl⟩ | ⟨code, hp, rfl⟩
    · exact .inl (hu.faultless hk)
    · exact .inr ((takeFault_takes code hk).imp (⟨code, ·⟩) (⟨code, ·⟩))
    · exact .inr (.inr ⟨code, halt_takes hp⟩)
  · exact .inl ⟨nofun, nofun, by simp⟩

/-! ### A fault is precise -/

/-- A halted block takes no further step (10_state R41; 60_exceptions R364). -/
theorem run_halted (hm : s.mode = .halted) (k : Nat) : Sys2Proof.core.run k s = .next s := by
  induction k with
  | zero => exact run_zero s
  | succ k ih => exact (run_succ k (by rw [step, if_pos hm])).trans ih

/-- Settles O9: of the two events of a fault only Halt halts, and only Diag comes to the point before Halt. -/
theorem everyHaltIsPrecise : Obligations.EveryHaltIsPrecise := by
  unfold Obligations.EveryHaltIsPrecise
  refine ⟨fun s code hm => ⟨rfl, (run_raiseFault code hm).1⟩, fun s t hm ht hh => ?_, fun s t code ht hp hnew => ?_,
    fun s t ht htrace => ?_⟩
  · rcases step_fault_cases ht with h | ⟨code, h⟩ | ⟨code, h⟩
    · exact absurd hh (h.live hm)
    · exact absurd hh (h.live hm)
    · exact ⟨code, h.cause, h.trace, h.afterDiag, h.pins, fun a => by rw [h.fm], fun a => by rw [h.vis], run_halted hh⟩
  · rcases step_fault_cases ht with h | ⟨c, h⟩ | ⟨c, h⟩
    · exact absurd (h.halting code hp) hnew
    · exact ⟨h.enabled, h.trace, h.pins, fun a => by rw [h.fm], fun a => by rw [h.vis]⟩
    · exact absurd (h.pos.symm.trans hp) nofun
  · rcases step_fault_cases ht with h | ⟨code, h⟩ | ⟨code, h⟩
    · exact absurd htrace h.noDiag
    · exact ⟨code, h.pos⟩
    · exact absurd (h.trace.symm.trans htrace) (by simp)

/-! ### A failing operation -/

/-- The fault of a failing operation of a transaction group: BUS_FAILURE for a byte transfer, a pin fault otherwise
(60_exceptions R363). -/
def opFault (unreportable : Bool) : BusOp → FaultCode
  | .dc _ | .cs _ => pinFault unreportable
  | .xfer _ _ => .busFailure

/-- A fault takes nothing of the request with it: what was due or on the bus makes no difference (60_exceptions R364). -/
theorem takeFault_drops (code : FaultCode) (w : Option WireWord) (ops : List BusOp) (s : State) :
    takeFault code { s with send := w, bus := ops } = takeFault code s := rfl

/-- The rest of a fault whose first event has happened follows. -/
theorem faultsInPlace_of_eq (hm : s.mode ≠ .halted) (h : o = .next (takeFault code s)) : FaultsInPlace o code s :=
  ⟨h, (run_raiseFault code hm).2⟩

section Failing

variable {unreportable : Bool} (hf : oracleFails s = some unreportable)

include hf

theorem pinOp_fails (k : State → State) : pinOp s k = takeFault (pinFault unreportable) s := by
  simp [pinOp, hf]

theorem busOp_fails (k : State → Host.Outcome State Fault Refusal) : busOp s k = .next (takeFault .busFailure s) := by
  simp [busOp, hf]

/-- Of a transaction group the first event of the fault happens, and no other. -/
theorem driveBus_fails {op : BusOp} {rest : List BusOp} (hb : s.bus = op :: rest) :
    driveBus s = .next (takeFault (opFault unreportable op) s) := by
  have hf' : oracleFails { s with bus := rest } = some unreportable := hf
  rw [driveBus, hb]
  cases op with
  | dc l | cs l => exact congrArg _ ((pinOp_fails hf' _).trans (takeFault_drops _ s.send rest s))
  | xfer b d => exact (busOp_fails hf' _).trans (congrArg _ (takeFault_drops _ s.send rest s))

/-- A wire command on its own variant fails at its first operation. -/
theorem issue_fails (hm : s.mode ≠ .halted) (hb : s.bus = []) {op : BusOp} {rest : List BusOp} :
    issue s.cfg.variant (op :: rest) s = .next (takeFault (opFault unreportable op) s) := by
  rw [issue, if_neg hm, if_pos rfl, hb, List.nil_append]
  exact (driveBus_fails (s := { s with send := none, bus := op :: rest }) hf rfl).trans
    (congrArg _ (takeFault_drops _ none (op :: rest) s))

/-- A pin event of the reset pulse and a busy sample fail at their point. -/
theorem seqStep_fails (hp : s.pos = .resetLow ∨ s.pos = .resetHigh ∨ ∃ site, s.pos = .sample site) :
    seqStep s = takeFault (pinFault unreportable) s := by
  rcases hp with hp | hp | ⟨site, hp⟩ <;> rw [seqStep, hp] <;> exact pinOp_fails hf _

end Failing

/-- The first operation of every wire command is DC (00_scope R11 to R13). -/
theorem exec_wire_starts_with_dc {i : Instr} {v : Variant} (hi : wireVariant i = some v) (s : State) :
    ∃ l rest, exec i s = issue v (.dc l :: rest) s := by
  cases hp : isPixelData i with
  | false => exact ⟨_, _, exec_eq_issue_wordOps hi hp s⟩
  | true =>
    cases i <;> simp only [isPixelData, Bool.false_eq_true] at hp <;> obtain rfl := Option.some.inj hi <;>
      exact ⟨_, _, rfl⟩

/-! ### A Delay never fails -/

/-- A point that belongs to no fault. -/
def NoFault (p : Pos) : Prop := ∀ code, p ≠ .raising code ∧ p ≠ .halting code

theorem epdInitNext_noFault (rest : List InitAction) (s : State) : NoFault (epdInitNext rest s).pos := by
  unfold epdInitNext
  split <;> exact fun _ => ⟨nofun, nofun⟩

theorem goledInitNext_noFault (rest : List (List Byte)) (s : State) : NoFault (goledInitNext rest s).pos := by
  unfold goledInitNext
  split <;> exact fun _ => ⟨nofun, nofun⟩

theorem woledInitNext_noFault (rest : List (List Byte)) (s : State) : NoFault (woledInitNext rest s).pos := by
  unfold woledInitNext
  split <;> exact fun _ => ⟨nofun, nofun⟩

/-- From `s` to `t` a Delay, and moves that come to no fault. -/
def Delays (s t : State) : Prop := t.mode ≠ .halted ∧ NoFault t.pos ∧ ∃ ms, t.trace = s.trace ++ [.delay ms]

/-- Moves after a delay, and their end. -/
theorem Delays.of_keeps {ms : Nat} (hk : Keeps u t) (hp : NoFault t.pos) (hm : u.mode ≠ .halted)
    (hu : u.trace = s.trace ++ [.delay ms]) : Delays s t :=
  ⟨hk.live hm, hp, ms, hk.trace.trans hu⟩

/-- At each of its positions a Delay is one event, whatever the oracle answers (60_exceptions R363). -/
theorem seqStep_delays (hm : s.mode ≠ .halted)
    (hp : s.pos = .resetHold ∨ s.pos = .resetSettle ∨ (∃ ms rest, s.pos = .pause ms rest) ∨ (∃ site, s.pos = .poll site) ∨
      s.pos = .goledPre ∨ s.pos = .goledPost ∨ s.pos = .woledDelay1 ∨ s.pos = .woledDelay2) :
    Delays s (seqStep s) := by
  have hpoint (ms : Nat) {p : Pos} (hnf : NoFault p) : Delays s { emit (.delay ms) s with pos := p } :=
    ⟨hm, hnf, ms, rfl⟩
  rcases hp with hp | hp | ⟨ms, rest, hp⟩ | ⟨site, hp⟩ | hp | hp | hp | hp <;> simp only [seqStep, hp]
  · exact hpoint _ fun _ => ⟨nofun, nofun⟩
  · exact .of_keeps (epdInitNext_keeps _ _) (epdInitNext_noFault _ _) nofun rfl
  · exact .of_keeps (epdInitNext_keeps _ _) (epdInitNext_noFault _ _) hm rfl
  · exact hpoint _ fun _ => ⟨nofun, nofun⟩
  · exact .of_keeps (goledInitNext_keeps _ _) (goledInitNext_noFault _ _) hm rfl
  · exact .of_keeps (finishRequest_keeps _) (fun _ => ⟨nofun, nofun⟩) hm rfl
  · exact hpoint _ fun _ => ⟨nofun, nofun⟩
  · exact .of_keeps (woledInitNext_keeps _ _) (woledInitNext_noFault _ _) hm rfl

/-- Settles O11: the operation at the head of the bus, at a point, or first in a wire command; a Delay; a Respond. -/
theorem failingOperationHalts : Obligations.FailingOperationHalts := by
  unfold Obligations.FailingOperationHalts
  intro s u hm hf
  have hbus {op : BusOp} {rest : List BusOp} (hb : s.bus = op :: rest) : FaultsInPlace (step s) (opFault u op) s :=
    faultsInPlace_of_eq hm ((step_bus hm (by simp [hb])).trans (driveBus_fails hf hb))
  refine ⟨fun l rest => hbus, fun l rest => hbus, fun b d rest => hbus, fun hb hs hp => ?_, fun hb hs hp => ?_,
    fun v hb hs hp => ?_, fun i hb hi _ => ?_⟩
  · have hidle : s.pos ≠ .idle := fun hn => by simp [hn] at hp
    exact faultsInPlace_of_eq hm ((step_point hm hb hs hidle).trans (congrArg _ (seqStep_fails hf hp)))
  · have hidle : s.pos ≠ .idle := fun hn => by simp [hn] at hp
    obtain ⟨hlive, hnf, ms, htrace⟩ := seqStep_delays hm hp
    exact ⟨_, ms, step_point hm hb hs hidle, hlive, hnf, htrace⟩
  · refine ⟨_, step_point hm hb hs (by simp [hp]), ?_⟩
    rw [seqStep, hp]
    exact ⟨rfl, rfl, rfl⟩
  · obtain ⟨l, rest, e⟩ := exec_wire_starts_with_dc hi s
    exact faultsInPlace_of_eq hm (e.trans (issue_fails hf hm hb))

end Sys2Proof.Machine
end
